-- ==== Sys2Proof/Word.lean ====
section
/-! DEFINITION. The bit-vector types of the block: host words, bytes, window offsets and the
host-operation word (00_scope.md R6, R7; 30_encoding.md R70). -/

namespace Sys2Proof

/-- A host register or host data word, `REG_W = 32` bits (00_scope.md R6). -/
abbrev Word := BitVec 32

/-- A byte lane of a host word (20_memory.md R52). -/
abbrev Byte := BitVec 8

/-- A byte offset in the 256-byte register window (20_memory.md R50). -/
abbrev Offset := BitVec 8

/-- The 41-bit host-operation word `HOP` (30_encoding.md R70). -/
abbrev Hop := BitVec 41

/-- The state of the 31-bit PRBS register, `LFSR_W = 31` (00_scope.md R6). -/
abbrev Lfsr := BitVec 31

end Sys2Proof
end

