-- ==== Sys2Proof/Config.lean ====
section
/-! DEFINITION. The parameters the spec leaves OPEN (00_scope.md R6; 92_eei_decisions.md, OPEN
parameters; 93_implementation_defined.md U15 to U17). Each is an opaque constant: no proof can
see its value. -/

namespace Sys2Proof.Config

/-- Which 256-byte block of the host's address space the register window occupies. OPEN
(20_memory.md R50); log 9. -/
opaque baseBlock : Nat

/-- `BASE`, the base address of the register window: OPEN, "a multiple of 256" (20_memory.md
R50). -/
def base : Nat := 256 * baseBlock

/-- `τ`, the physical duration of one period LSB: OPEN and positive; no rule depends on it
(00_scope.md R10, 43_sample_synthesis.md R153). Nothing in the model reads it; log 9. -/
opaque tau : ℕ+

/-- `STEP_LATENCY`, the time between engine steps: OPEN; no rule depends on it
(70_reset_and_hazards.md R193). Nothing in the model reads it; log 9. -/
opaque stepLatency : Nat

end Sys2Proof.Config
end

