-- ==== Sys2Proof/Syntax.lean ====
section
/-! DEFINITION. The operations of the block, one constructor of `Instr` for each row of
spec/opcode_table.json (30_encoding.md R78, R81), and the register names they act on. -/

namespace Sys2Proof

/-- The 13 host-visible registers of the register map (10_state.md, section 3). -/
inductive Reg where
  | id | ctrl | seed | symPeriod | sampPeriod | depth | amplitude
  | cmd | status | sampleCount | acc | lfsr | pstate
  deriving DecidableEq, Repr

/-- What a host access does at its offset: `MemRead(BASE + off, 4)` or
`MemWrite(BASE + off, 4, v)` (00_scope.md R8). A read carries no data: `WDATA` "is ignored and
written as 0" (30_encoding.md R70); log 12. -/
inductive Access where
  | read
  | write (v : Word)
  deriving DecidableEq, Repr

/-- The operations of the block: 29 decodable host operations, 3 illegal classes and 4 internal
actions (spec/opcode_table.json). -/
inductive Instr where
  -- register reads, 40_register_access.md R91 to R103
  | rdId
  | rdCtrl
  | rdSeed
  | rdSymPeriod
  | rdSampPeriod
  | rdDepth
  | rdAmplitude
  | rdCmd
  | rdStatus
  | rdSampleCount
  | rdAcc
  | rdLfsr
  | rdPstate
  -- register writes, 40_register_access.md R104 to R111
  | wrCtrl (v : Word)
  | wrSeed (v : Word)
  | wrSymPeriod (v : Word)
  | wrSampPeriod (v : Word)
  | wrDepth (v : Word)
  | wrAmplitude (v : Word)
  | wrStatus (v : Word)
  -- writes to read-only registers, 40_register_access.md R112
  | wrId (v : Word)
  | wrSampleCount (v : Word)
  | wrAcc (v : Word)
  | wrLfsr (v : Word)
  | wrPstate (v : Word)
  -- commands, 41_commands.md R121 to R124
  | cmdNop
  | cmdStart
  | cmdAbort
  | cmdSoftReset
  -- illegal classes, 41_commands.md R125 and 40_register_access.md R113, R114
  | cmdIllegal (v : Word)
  | badAccessMisaligned (off : Offset) (acc : Access)
  | badAccessUnmapped (off : Offset) (acc : Access)
  -- internal actions, 30_encoding.md R78
  | engineStep
  | advPrbs31
  | advFixed20
  | reset
  deriving DecidableEq, Repr

end Sys2Proof
end

