-- ==== Sys2Proof/WellFormed.lean ====
section
/-! DEFINITION. Which terms of `Instr` stand for an operation of the block: the operands of the
three illegal classes lie in the class (30_encoding.md R71, R76). -/

namespace Sys2Proof

/-- `off[1:0] != 0b00` (20_memory.md R53). -/
def misaligned (off : Offset) : Bool := off.extractLsb' 0 2 != 0#2

/-- `off > 0x30`: beyond the last mapped register (30_encoding.md R71). -/
def beyondMap (off : Offset) : Bool := 0x30#8 < off

/-- The operand conditions of an operation. `CMD_ILLEGAL` carries a word that is none of the four
commands (41_commands.md R125), `BAD_ACCESS_MISALIGNED` a misaligned offset
(40_register_access.md R114), `BAD_ACCESS_UNMAPPED` an aligned offset above `0x30` (R113). Every
other operation takes any operand. -/
def WellFormed : Instr → Bool
  | .cmdIllegal v => 3#32 < v
  | .badAccessMisaligned off _ => misaligned off
  | .badAccessUnmapped off _ => !misaligned off && beyondMap off
  | .rdId | .rdCtrl | .rdSeed | .rdSymPeriod | .rdSampPeriod | .rdDepth | .rdAmplitude
  | .rdCmd | .rdStatus | .rdSampleCount | .rdAcc | .rdLfsr | .rdPstate => true
  | .wrCtrl _ | .wrSeed _ | .wrSymPeriod _ | .wrSampPeriod _ | .wrDepth _ | .wrAmplitude _
  | .wrStatus _ | .wrId _ | .wrSampleCount _ | .wrAcc _ | .wrLfsr _ | .wrPstate _ => true
  | .cmdNop | .cmdStart | .cmdAbort | .cmdSoftReset => true
  | .engineStep | .advPrbs31 | .advFixed20 | .reset => true

end Sys2Proof
end

