-- ==== Sys2Proof/Decode.lean ====
section
/-! DEFINITION. The 41-bit host-operation word: its fields, its decoder (total on all 2^41 words,
30_encoding.md R71) and its encoder (R70, R81); the bus access that carries it (20_memory.md R50,
R52). -/

namespace Sys2Proof

/-- `HOP[40]`, the `WR` bit (30_encoding.md R70). -/
def hopWr (h : Hop) : Bool := h.getLsbD 40

/-- `HOP[39:32]`, the byte offset `OFF` (30_encoding.md R70). -/
def hopOff (h : Hop) : Offset := h.extractLsb' 32 8

/-- `HOP[31:0]`, the write data `WDATA` (30_encoding.md R70). -/
def hopData (h : Hop) : Word := h.extractLsb' 0 32

/-- The access a word asks for: `WDATA` is the data of a write and is ignored by a read
(30_encoding.md R70). -/
def hopAccess (h : Hop) : Access := if hopWr h then .write (hopData h) else .read

/-- `name(off)`: the register at an offset of the register map (10_state.md, section 3). -/
def regAt (off : Offset) : Option Reg :=
  match off.toNat with
  | 0x00 => some .id
  | 0x04 => some .ctrl
  | 0x08 => some .seed
  | 0x0C => some .symPeriod
  | 0x10 => some .sampPeriod
  | 0x14 => some .depth
  | 0x18 => some .amplitude
  | 0x1C => some .cmd
  | 0x20 => some .status
  | 0x24 => some .sampleCount
  | 0x28 => some .acc
  | 0x2C => some .lfsr
  | 0x30 => some .pstate
  | _ => none

/-- `RD_<name>` (30_encoding.md R71). -/
def readOf : Reg → Instr
  | .id => .rdId
  | .ctrl => .rdCtrl
  | .seed => .rdSeed
  | .symPeriod => .rdSymPeriod
  | .sampPeriod => .rdSampPeriod
  | .depth => .rdDepth
  | .amplitude => .rdAmplitude
  | .cmd => .rdCmd
  | .status => .rdStatus
  | .sampleCount => .rdSampleCount
  | .acc => .rdAcc
  | .lfsr => .rdLfsr
  | .pstate => .rdPstate

/-- The command a data word selects: only the four listed words select one (30_encoding.md R75,
40_register_access.md R110). -/
def commandOf (v : Word) : Instr :=
  if v = 0#32 then .cmdNop
  else if v = 1#32 then .cmdStart
  else if v = 2#32 then .cmdAbort
  else if v = 3#32 then .cmdSoftReset
  else .cmdIllegal v

/-- `WR_<name>`, and the command decode for `CMD` (30_encoding.md R71). -/
def writeOf (r : Reg) (v : Word) : Instr :=
  match r with
  | .id => .wrId v
  | .ctrl => .wrCtrl v
  | .seed => .wrSeed v
  | .symPeriod => .wrSymPeriod v
  | .sampPeriod => .wrSampPeriod v
  | .depth => .wrDepth v
  | .amplitude => .wrAmplitude v
  | .cmd => commandOf v
  | .status => .wrStatus v
  | .sampleCount => .wrSampleCount v
  | .acc => .wrAcc v
  | .lfsr => .wrLfsr v
  | .pstate => .wrPstate v

/-- The decoder (30_encoding.md R71): misaligned first, then unmapped, then the register's read or
write. It is total and produces no internal operation (R78). -/
def decode (h : Hop) : Instr :=
  if misaligned (hopOff h) then .badAccessMisaligned (hopOff h) (hopAccess h)
  else
    match regAt (hopOff h) with
    | none => .badAccessUnmapped (hopOff h) (hopAccess h)
    | some r =>
      match hopAccess h with
      | .read => readOf r
      | .write v => writeOf r v

/-- Why a number is no host operation. -/
inductive DecodeReject where
  /-- The number has a bit above bit 40: a `HOP` has 41 bits (30_encoding.md R70). Raised by
  `hopOfNat`. Safe: no such word exists on the host interface. -/
  | notAHop
  deriving DecidableEq, Repr

/-- A number as a `HOP`, rejected by name where it has more than 41 bits (30_encoding.md R70). -/
def hopOfNat (w : Nat) : Except DecodeReject Hop :=
  if w < 2 ^ 41 then .ok (BitVec.ofNat 41 w) else .error .notAHop

/-- The `HOP` that a row of spec/opcode_table.json gives: bit 0 of the number is `WDATA[0]`, bit 40
is `WR`, and every bit above `nbits` is 0; log 13. -/
def hopOfTableWord (nbits w : Nat) : Except DecodeReject Hop := hopOfNat (w % 2 ^ nbits)

/-- The instruction the decoder reads from a table word. -/
def decodeTableWord (nbits w : Nat) : Option Instr :=
  match hopOfTableWord nbits w with
  | .ok h => some (decode h)
  | .error _ => none

/-! ## The encoder -/

/-- `{WR, OFF, WDATA}` (30_encoding.md R70). -/
def mkHop (wr : Bool) (off : Offset) (d : Word) : Hop := BitVec.ofBool wr ++ off ++ d

/-- The word of an access at an offset: the data of a read is "written as 0" (30_encoding.md
R70). -/
def accessHop (off : Offset) (acc : Access) : Hop :=
  match acc with
  | .read => mkHop false off 0#32
  | .write v => mkHop true off v

/-- `off(REG)`, the byte offset of a register (10_state.md, section 3). -/
def regOffset : Reg → Offset
  | .id => 0x00#8
  | .ctrl => 0x04#8
  | .seed => 0x08#8
  | .symPeriod => 0x0C#8
  | .sampPeriod => 0x10#8
  | .depth => 0x14#8
  | .amplitude => 0x18#8
  | .cmd => 0x1C#8
  | .status => 0x20#8
  | .sampleCount => 0x24#8
  | .acc => 0x28#8
  | .lfsr => 0x2C#8
  | .pstate => 0x30#8

/-- The word of a register read. -/
def readHop (r : Reg) : Hop := accessHop (regOffset r) .read

/-- The word of a register write. -/
def writeHop (r : Reg) (v : Word) : Hop := accessHop (regOffset r) (.write v)

/-- The word of an operation (30_encoding.md R81); an internal action has none (R78). -/
def encode : Instr → Option Hop
  | .rdId => some (readHop .id)
  | .rdCtrl => some (readHop .ctrl)
  | .rdSeed => some (readHop .seed)
  | .rdSymPeriod => some (readHop .symPeriod)
  | .rdSampPeriod => some (readHop .sampPeriod)
  | .rdDepth => some (readHop .depth)
  | .rdAmplitude => some (readHop .amplitude)
  | .rdCmd => some (readHop .cmd)
  | .rdStatus => some (readHop .status)
  | .rdSampleCount => some (readHop .sampleCount)
  | .rdAcc => some (readHop .acc)
  | .rdLfsr => some (readHop .lfsr)
  | .rdPstate => some (readHop .pstate)
  | .wrCtrl v => some (writeHop .ctrl v)
  | .wrSeed v => some (writeHop .seed v)
  | .wrSymPeriod v => some (writeHop .symPeriod v)
  | .wrSampPeriod v => some (writeHop .sampPeriod v)
  | .wrDepth v => some (writeHop .depth v)
  | .wrAmplitude v => some (writeHop .amplitude v)
  | .wrStatus v => some (writeHop .status v)
  | .wrId v => some (writeHop .id v)
  | .wrSampleCount v => some (writeHop .sampleCount v)
  | .wrAcc v => some (writeHop .acc v)
  | .wrLfsr v => some (writeHop .lfsr v)
  | .wrPstate v => some (writeHop .pstate v)
  | .cmdNop => some (writeHop .cmd 0#32)
  | .cmdStart => some (writeHop .cmd 1#32)
  | .cmdAbort => some (writeHop .cmd 2#32)
  | .cmdSoftReset => some (writeHop .cmd 3#32)
  | .cmdIllegal v => some (writeHop .cmd v)
  | .badAccessMisaligned off acc => some (accessHop off acc)
  | .badAccessUnmapped off acc => some (accessHop off acc)
  | .engineStep | .advPrbs31 | .advFixed20 | .reset => none

/-- The `match` and `mask` of an operation's row (30_encoding.md R81, spec/opcode_table.json); the
illegal classes and the internal actions have none. -/
def tableRow : Instr → Option (Hop × Hop)
  | .rdId => some (0x00000000000#41, 0x1FF00000000#41)
  | .rdCtrl => some (0x00400000000#41, 0x1FF00000000#41)
  | .rdSeed => some (0x00800000000#41, 0x1FF00000000#41)
  | .rdSymPeriod => some (0x00C00000000#41, 0x1FF00000000#41)
  | .rdSampPeriod => some (0x01000000000#41, 0x1FF00000000#41)
  | .rdDepth => some (0x01400000000#41, 0x1FF00000000#41)
  | .rdAmplitude => some (0x01800000000#41, 0x1FF00000000#41)
  | .rdCmd => some (0x01C00000000#41, 0x1FF00000000#41)
  | .rdStatus => some (0x02000000000#41, 0x1FF00000000#41)
  | .rdSampleCount => some (0x02400000000#41, 0x1FF00000000#41)
  | .rdAcc => some (0x02800000000#41, 0x1FF00000000#41)
  | .rdLfsr => some (0x02C00000000#41, 0x1FF00000000#41)
  | .rdPstate => some (0x03000000000#41, 0x1FF00000000#41)
  | .wrCtrl _ => some (0x10400000000#41, 0x1FF00000000#41)
  | .wrSeed _ => some (0x10800000000#41, 0x1FF00000000#41)
  | .wrSymPeriod _ => some (0x10C00000000#41, 0x1FF00000000#41)
  | .wrSampPeriod _ => some (0x11000000000#41, 0x1FF00000000#41)
  | .wrDepth _ => some (0x11400000000#41, 0x1FF00000000#41)
  | .wrAmplitude _ => some (0x11800000000#41, 0x1FF00000000#41)
  | .wrStatus _ => some (0x12000000000#41, 0x1FF00000000#41)
  | .wrId _ => some (0x10000000000#41, 0x1FF00000000#41)
  | .wrSampleCount _ => some (0x12400000000#41, 0x1FF00000000#41)
  | .wrAcc _ => some (0x12800000000#41, 0x1FF00000000#41)
  | .wrLfsr _ => some (0x12C00000000#41, 0x1FF00000000#41)
  | .wrPstate _ => some (0x13000000000#41, 0x1FF00000000#41)
  | .cmdNop => some (0x11C00000000#41, 0x1FFFFFFFFFF#41)
  | .cmdStart => some (0x11C00000001#41, 0x1FFFFFFFFFF#41)
  | .cmdAbort => some (0x11C00000002#41, 0x1FFFFFFFFFF#41)
  | .cmdSoftReset => some (0x11C00000003#41, 0x1FFFFFFFFFF#41)
  | .cmdIllegal _ | .badAccessMisaligned _ _ | .badAccessUnmapped _ _ => none
  | .engineStep | .advPrbs31 | .advFixed20 | .reset => none

/-! ## The bus -/

/-- The offset of a host address: `off = address - BASE` inside the 256-byte window; the rest of
the address space is the platform's (20_memory.md R50, R51); log 17. -/
def busOffset (addr : Nat) : Option Offset :=
  if Config.base ≤ addr ∧ addr < Config.base + 256 then some (BitVec.ofNat 8 (addr - Config.base))
  else none

/-- The host operation of a 32-bit bus access, where the address lies in the window
(20_memory.md R50, 30_encoding.md R70). -/
def busHop (addr : Nat) (acc : Access) : Option Hop :=
  (busOffset addr).map fun off => accessHop off acc

/-- Byte lane `i` of a word, bits `[8i+7:8i]`: little-endian (20_memory.md R52). -/
def byteLane (w : Word) (i : Fin 4) : Byte := w.extractLsb' (8 * i.val) 8

end Sys2Proof
end

