-- ==== Sys2Proof/Machine/State.lean ====
section
/-! DEFINITION. The state of the block (10_state.md R24 to R40), the actions that move it
(10_state.md R21), the reasons a step can stop, and the state after reset (10_state.md R44). -/

namespace Sys2Proof.Machine

/-- The two pattern sources, `CTRL.PSEL`: 0 = PRBS31, 1 = FIXED20 (10_state.md R25). -/
inductive Pattern where
  | prbs31
  | fixed20
  deriving DecidableEq, Repr

/-- One transfer of the output stream: `DATA[31:0]` and `LAST` (10_state.md R40). -/
structure Transfer where
  data : Word
  last : Bool
  deriving DecidableEq, Repr

/-- One atomic action (10_state.md R21): a host access, named by its host-operation word; one
engine step; or the reset input. The internal advances are no actions of their own: they happen
inside an engine step (42_pattern_sources.md R139). -/
inductive Action where
  | host (hop : Hop)
  | engine
  | reset
  deriving DecidableEq, Repr

/-- The state of one block. The spec's elements come first, each with the rule that names it;
`ID` is hardwired and `CMD`, `PSTATE` and `IRQ` have no storage of their own. The last two fields
are the model's: the host's side of the port and the interleaving still to come. -/
structure State where
  /-- `CTRL[0]`, 10_state.md R25. -/
  psel : Pattern
  /-- `CTRL[1]`, 10_state.md R25. -/
  ieDone : Bool
  /-- `CTRL[2]`, 10_state.md R25. -/
  ieErr : Bool
  /-- `SEED[30:0]`, 10_state.md R26. -/
  seed : Lfsr
  /-- `SYM_PERIOD`, 10_state.md R27. -/
  symPeriod : Word
  /-- `SAMP_PERIOD`, 10_state.md R28. -/
  sampPeriod : Word
  /-- `DEPTH`, 10_state.md R29. -/
  depth : Word
  /-- `AMPLITUDE[15:0]`, 10_state.md R30. -/
  amplitude : BitVec 16
  /-- `STATUS[0]`, 10_state.md R32. -/
  busy : Bool
  /-- `STATUS[1]`, 10_state.md R32. -/
  done : Bool
  /-- `STATUS[2]`, 10_state.md R32. -/
  err : Bool
  /-- `STATUS[3]`, 10_state.md R32. -/
  aborted : Bool
  /-- `STATUS[11:8]`, 10_state.md R32, 60_exceptions.md R160. -/
  errcode : BitVec 4
  /-- `SAMPLE_COUNT`, 10_state.md R33. -/
  sampleCount : Word
  /-- `ACC`, the phase accumulator, 10_state.md R34. -/
  acc : Word
  /-- `LFSR`, the PRBS31 shift register, 10_state.md R35. -/
  lfsr : Lfsr
  /-- `IDX`, the FIXED20 cyclic index, 10_state.md R37. -/
  idx : BitVec 5
  /-- `LVL`, the current logic level, 10_state.md R38. -/
  lvl : Bool
  /-- `W_SYM`, the symbol period `T` of the run, 10_state.md R36. -/
  wSym : Word
  /-- `W_SAMP`, the sample period `S` of the run, 10_state.md R36. -/
  wSamp : Word
  /-- `W_DEPTH`, the target sample count `N` of the run, 10_state.md R36. -/
  wDepth : Word
  /-- `W_AMPL`, the amplitude `A` of the run, 10_state.md R36. -/
  wAmpl : BitVec 16
  /-- `W_PSEL`, the pattern source of the run, 10_state.md R36. -/
  wPsel : Pattern
  /-- `OUT`, every transfer the sink has accepted since power-on, oldest first, 10_state.md R40. -/
  out : List Transfer
  /-- The model's: every `rdata` a host read has returned, oldest first (40_register_access.md
  R90); log 5. -/
  reads : List Word
  /-- The model's: the actions still to come, in the order of the interleaving (10_state.md R21);
  log 1. -/
  schedule : List Action
  deriving DecidableEq, Repr

/-- Why the machine stops. -/
inductive Fault where
  /-- An engine step whose advance loop does not terminate: `W_SYM = 0` with `ACC < W_SAMP`
  (43_sample_synthesis.md R143; 93_implementation_defined.md U3). Raised by `execEngineStep` only.
  Safe: the block gives this case no effect, and no run reaches it, because START refuses
  `SYM_PERIOD = 0` (41_commands.md R121); log 8. -/
  | advanceLoopDiverges
  deriving DecidableEq, Repr

/-- Why the model gives an operation no meaning. -/
inductive Refusal where
  /-- The operation has no meaning yet. Raised by an arm of `exec` only, by the row's mnemonic; no
  arm raises it now. Safe. -/
  | notModelled (mnemonic : String)
  deriving DecidableEq, Repr

/-- The block right after reset (10_state.md R44), with nothing emitted, nothing read and nothing
scheduled (logs 3, 5 and 6). -/
def State.reset : State where
  psel := .prbs31
  ieDone := false
  ieErr := false
  seed := 0x7FFFFFFF#31
  symPeriod := 0#32
  sampPeriod := 0#32
  depth := 0#32
  amplitude := 0#16
  busy := false
  done := false
  err := false
  aborted := false
  errcode := 0#4
  sampleCount := 0#32
  acc := 0#32
  lfsr := 0#31
  idx := 0#5
  lvl := false
  wSym := 0#32
  wSamp := 0#32
  wDepth := 0#32
  wAmpl := 0#16
  wPsel := .prbs31
  out := []
  reads := []
  schedule := []

end Sys2Proof.Machine
end

