-- ==== Sys2Proof/Machine/Operands.lean ====
section
/-! DEFINITION. How a host word is assembled from a register's fields and how a written word is
taken apart into them (30_encoding.md R72, R76): the operands of every host access. -/

namespace Sys2Proof.Machine

/-- The hardwired value of `ID`, the ASCII bytes `BPS1` (10_state.md R24). -/
def idValue : Word := 0x42505331#32

/-- `PSEL` as a bit (10_state.md R25). -/
def pselBit : Pattern → Bool
  | .prbs31 => false
  | .fixed20 => true

/-- The pattern a `PSEL` bit selects (10_state.md R25). -/
def pselOfBit : Bool → Pattern
  | false => .prbs31
  | true => .fixed20

/-! ## Words a read assembles: every reserved bit is 0 (30_encoding.md R72) -/

/-- `zext_32({IE_ERR, IE_DONE, PSEL})` (40_register_access.md R92). -/
def ctrlWord (s : State) : Word :=
  0#29 ++ BitVec.ofBool s.ieErr ++ BitVec.ofBool s.ieDone ++ BitVec.ofBool (pselBit s.psel)

/-- `zext_32(SEED[30:0])` (40_register_access.md R93). -/
def seedWord (s : State) : Word := s.seed.zeroExtend 32

/-- `zext_32(AMPLITUDE[15:0])` (40_register_access.md R97). -/
def amplitudeWord (s : State) : Word := s.amplitude.zeroExtend 32

/-- `zext_32({ERRCODE, 0b0000, ABORTED, ERR, DONE, BUSY})` (40_register_access.md R99). -/
def statusWord (s : State) : Word :=
  0#20 ++ s.errcode ++ 0#4 ++ BitVec.ofBool s.aborted ++ BitVec.ofBool s.err
    ++ BitVec.ofBool s.done ++ BitVec.ofBool s.busy

/-- `zext_32(LFSR[30:0])` (40_register_access.md R102). -/
def lfsrWord (s : State) : Word := s.lfsr.zeroExtend 32

/-- `zext_32({LVL, 0b000, IDX[4:0]})` (40_register_access.md R103). -/
def pstateWord (s : State) : Word := 0#23 ++ BitVec.ofBool s.lvl ++ 0#3 ++ s.idx

/-- `value(off)` of each register (40_register_access.md R90 to R103). -/
def regValue (r : Reg) (s : State) : Word :=
  match r with
  | .id => idValue
  | .ctrl => ctrlWord s
  | .seed => seedWord s
  | .symPeriod => s.symPeriod
  | .sampPeriod => s.sampPeriod
  | .depth => s.depth
  | .amplitude => amplitudeWord s
  | .cmd => 0#32
  | .status => statusWord s
  | .sampleCount => s.sampleCount
  | .acc => s.acc
  | .lfsr => lfsrWord s
  | .pstate => pstateWord s

/-! ## Fields a write takes from `WDATA`: reserved bits are dropped (30_encoding.md R72) -/

/-- `v[0]` as `CTRL.PSEL` (40_register_access.md R104). -/
def ctrlPsel (v : Word) : Pattern := pselOfBit (v.getLsbD 0)

/-- `v[1]` as `CTRL.IE_DONE` (40_register_access.md R104). -/
def ctrlIeDone (v : Word) : Bool := v.getLsbD 1

/-- `v[2]` as `CTRL.IE_ERR` (40_register_access.md R104). -/
def ctrlIeErr (v : Word) : Bool := v.getLsbD 2

/-- `v[30:0]` as `SEED` (40_register_access.md R105). -/
def seedField (v : Word) : Lfsr := v.extractLsb' 0 31

/-- `v[15:0]` as `AMPLITUDE.AMPL` (40_register_access.md R109). -/
def amplitudeField (v : Word) : BitVec 16 := v.extractLsb' 0 16

/-- `v[1]`, the W1C strobe of `DONE` (40_register_access.md R111). -/
def clearsDone (v : Word) : Bool := v.getLsbD 1

/-- `v[2]`, the W1C strobe of `ERR` and `ERRCODE` (40_register_access.md R111). -/
def clearsErr (v : Word) : Bool := v.getLsbD 2

/-- `v[3]`, the W1C strobe of `ABORTED` (40_register_access.md R111). -/
def clearsAborted (v : Word) : Bool := v.getLsbD 3

end Sys2Proof.Machine
end

