-- ==== Sys2Proof/Machine/Flags.lean ====
section
/-! DEFINITION. The flags of the block (10_state.md R42): the error codes and the condition under
which START is refused (60_exceptions.md R160, R164), the interrupt level (10_state.md R41), and
the flag of a run's last sample (43_sample_synthesis.md R149). -/

namespace Sys2Proof.Machine

/-- The error causes (60_exceptions.md R160). -/
inductive ErrCause where
  | invalidSampPeriod
  | invalidSymPeriod
  | invalidDepth
  | illegalCmd
  | startWhileBusy
  | badAccess
  deriving DecidableEq, Repr

/-- `STATUS.ERRCODE` of a cause (60_exceptions.md R160). -/
def errCode : ErrCause → BitVec 4
  | .invalidSampPeriod => 1#4
  | .invalidSymPeriod => 2#4
  | .invalidDepth => 3#4
  | .illegalCmd => 4#4
  | .startWhileBusy => 5#4
  | .badAccess => 6#4

/-- The error a START raises, if any, in the priority order of 60_exceptions.md R164 and
41_commands.md R121. -/
def startError (s : State) : Option ErrCause :=
  if s.busy then some .startWhileBusy
  else if s.sampPeriod = 0#32 then some .invalidSampPeriod
  else if s.symPeriod = 0#32 then some .invalidSymPeriod
  else if s.depth = 0#32 then some .invalidDepth
  else none

/-- `IRQ = (STATUS.DONE & CTRL.IE_DONE) | (STATUS.ERR & CTRL.IE_ERR)`, a pure function of the state
(10_state.md R41, 60_exceptions.md R167). -/
def irq (s : State) : Bool := (s.done && s.ieDone) || (s.err && s.ieErr)

/-- `n + 1 == N` for the step number `n = SAMPLE_COUNT` (43_sample_synthesis.md R149, R151). -/
def lastSample (s : State) : Bool := s.sampleCount.toNat + 1 == s.wDepth.toNat

end Sys2Proof.Machine
end

