-- ==== Sys2Proof/Machine/Interp.lean ====
section
/-! DEFINITION. The arithmetic of one sample, on mathematical integers (00_scope.md R7): the
rounding, the level codes, the linear-edge interpolator, the advance count and the accumulator
after the advances (00_scope.md R9; 43_sample_synthesis.md R141 to R148). -/

namespace Sys2Proof.Machine

/-- `RHA(p, q) = sign(p) * ((2*|p| + q) div (2*q))`: round half away from zero (00_scope.md R9). -/
def rha (p : Int) (q : Nat) : Int :=
  let m : Nat := (2 * p.natAbs + q) / (2 * q)
  if p < 0 then -(m : Int) else (m : Int)

/-- `L(1) = RHA(A, 2)`, `L(0) = -RHA(A, 2)` (43_sample_synthesis.md R147). -/
def levelCode (ampl : Nat) (lvl : Bool) : Int :=
  if lvl then rha ampl 2 else -rha ampl 2

/-- `E(prev, pre)`: `RHA(A*(S - 2*pre), 2*S)` on a rising edge, `RHA(A*(2*pre - S), 2*S)` on a
falling one (43_sample_synthesis.md R148). -/
def edgeCode (ampl samp pre : Nat) (prev : Bool) : Int :=
  if prev then rha (ampl * (2 * (pre : Int) - samp)) (2 * samp)
  else rha (ampl * ((samp : Int) - 2 * pre)) (2 * samp)

/-- The sample of a step: steady where the level after the advances equals the level before the
step, an edge sample otherwise (43_sample_synthesis.md R145, R146, R148). -/
def sampleCode (ampl samp pre : Nat) (prev lvl : Bool) : Int :=
  if lvl = prev then levelCode ampl lvl else edgeCode ampl samp pre prev

/-- `k`, the number of advances of a step: 0 where `pre - S >= 0`, else `ceil((S - pre) / T)`
(43_sample_synthesis.md R142, R143). -/
def advanceCount (pre samp sym : Nat) : Nat :=
  if samp ≤ pre then 0 else (samp - pre + sym - 1) / sym

/-- The accumulator after the advances, `pre - S + k*T` (43_sample_synthesis.md R141, R143,
R144). -/
def accAfter (pre samp sym k : Nat) : Int := (pre : Int) - samp + k * sym

end Sys2Proof.Machine
end

