-- ==== Sys2Proof/Machine/Pattern.lean ====
section
/-! DEFINITION. The pattern sources (42_pattern_sources.md): the FIXED20 literal and its cyclic
index, the PRBS31 shift register, and many advances of either at once
(43_sample_synthesis.md R143). -/

namespace Sys2Proof.Machine

/-! ## FIXED20 -/

/-- `PAT[0..19]` as a 20-bit word with bit `j = PAT[j]`: `0xA257C` (42_pattern_sources.md R130). -/
def patWord : BitVec 20 := 0xA257C#20

/-- `PAT[j]` (42_pattern_sources.md R130). -/
def pat (idx : BitVec 5) : Bool := patWord.getLsbD idx.toNat

/-- `(IDX + k) mod 20` (42_pattern_sources.md R132, 43_sample_synthesis.md R143). -/
def idxPlus (idx : BitVec 5) (k : Nat) : BitVec 5 := BitVec.ofNat 5 ((idx.toNat + k) % 20)

/-! ## PRBS31 -/

/-- `inj = LFSR[30] XOR LFSR[27]` of the pre-shift value (42_pattern_sources.md R131). -/
def prbsInject (l : Lfsr) : Bool := l.getLsbD 30 ^^ l.getLsbD 27

/-- `{LFSR[29:0], inj}` (42_pattern_sources.md R131). -/
def prbsNext (l : Lfsr) : Lfsr := l.extractLsb' 0 30 ++ BitVec.ofBool (prbsInject l)

/-- `c(f) v` for the polynomial over GF(2) with coefficients `c` and a linear `f`, by Horner's rule
on the top `n` of the 31 coefficients. -/
def horner (f : Lfsr → Lfsr) (c v : Lfsr) : Nat → Lfsr
  | 0 => 0#31
  | n + 1 => f (horner f c v n) ^^^ (if c.getLsbD (30 - n) then v else 0#31)

/-- `x * c` modulo `x^31 + x^3 + 1`, the polynomial that `prbsNext` satisfies:
`b[t+31] = b[t+3] XOR b[t]` for the injected bits (42_pattern_sources.md R131). -/
def polyMulX (c : Lfsr) : Lfsr := (c <<< 1) ^^^ (if c.getLsbD 30 then 9#31 else 0#31)

/-- `a * b` modulo the same polynomial. -/
def polyMul (a b : Lfsr) : Lfsr := horner polyMulX a b 31

/-- `x^k` modulo the same polynomial for `k < 2^fuel`, by repeated squaring. -/
def polyPowX : Nat → Nat → Lfsr
  | 0, _ => 1#31
  | fuel + 1, k =>
    if k = 0 then 1#31
    else
      let h := polyPowX fuel (k / 2)
      if k % 2 = 1 then polyMulX (polyMul h h) else polyMul h h

/-- The shift register `k < 2^32` advances ahead. The spec lets the advances of a step be performed
"by any means that leaves the same state ... the `LFSR` is jumped `k` states ahead"
(43_sample_synthesis.md R143); log 14. -/
def prbsJump (k : Nat) (l : Lfsr) : Lfsr := horner prbsNext (polyPowX 32 k) l 31

end Sys2Proof.Machine
end

