-- ==== Sys2Proof/Machine/Ops.lean ====
section
/-! DEFINITION. The named operations over the state that the meanings share: returning read data,
recording an error and clearing it, beginning and stopping a run, reset, the pattern advances, the
emission of a transfer, and taking the next action of the schedule. -/

namespace Sys2Proof.Machine

/-! ## The host port -/

/-- `rdata <- v`: the value a host read returns (40_register_access.md R90). -/
def returnData (v : Word) (s : State) : State := { s with reads := s.reads ++ [v] }

/-- A read of a mapped register: `rdata <- value(off)`, nothing else (40_register_access.md
R90). -/
def readReg (r : Reg) (s : State) : State := returnData (regValue r s) s

/-! ## Taking an error and returning from it -/

/-- `raise Err(c)`: the first error's code is captured, `ERR` is set (60_exceptions.md R162). The
block saves nothing else and goes nowhere (R166). -/
def raiseErr (c : ErrCause) (s : State) : State :=
  { s with errcode := if s.err then s.errcode else errCode c, err := true }

/-- The return from an error or a completion: the W1C write of `v` to `STATUS`
(40_register_access.md R111, 60_exceptions.md R169). -/
def ackStatus (v : Word) (s : State) : State :=
  { s with
    done := if clearsDone v then false else s.done
    err := if clearsErr v then false else s.err
    errcode := if clearsErr v then 0#4 else s.errcode
    aborted := if clearsAborted v then false else s.aborted }

/-- A BAD_ACCESS: a read returns 0, a write writes nothing, and the error is recorded
(40_register_access.md R113, R114). -/
def badAccess (acc : Access) (s : State) : State :=
  match acc with
  | .read => raiseErr .badAccess (returnData 0#32 s)
  | .write _ => raiseErr .badAccess s

/-! ## Runs -/

/-- The effect of an accepted START (41_commands.md R121, 42_pattern_sources.md R133). -/
def beginRun (s : State) : State :=
  { s with
    wSamp := s.sampPeriod
    wSym := s.symPeriod
    wDepth := s.depth
    wAmpl := s.amplitude
    wPsel := s.psel
    acc := s.symPeriod
    lfsr := s.seed
    idx := 0#5
    lvl := false
    sampleCount := 0#32
    done := false
    aborted := false
    busy := true }

/-- The effect of ABORT on a run (41_commands.md R123). -/
def abortRun (s : State) : State := { s with busy := false, aborted := true }

/-- The reset action: every element of the block takes its reset value; the history of the ports
and the actions still to come are not the block's (70_reset_and_hazards.md R180, 10_state.md
R44). -/
def resetBlock (s : State) : State :=
  { State.reset with out := s.out, reads := s.reads, schedule := s.schedule }

/-! ## Pattern advances -/

/-- One PRBS31 advance (42_pattern_sources.md R131). -/
def advancePrbs31 (s : State) : State :=
  { s with lfsr := prbsNext s.lfsr, lvl := prbsInject s.lfsr }

/-- One FIXED20 advance: the index first, then `PAT` at the new index (42_pattern_sources.md
R132). -/
def advanceFixed20 (s : State) : State :=
  { s with idx := idxPlus s.idx 1, lvl := pat (idxPlus s.idx 1) }

/-- `ADVANCE`: one advance of the source the run selects (42_pattern_sources.md R134). -/
def advance (s : State) : State :=
  match s.wPsel with
  | .prbs31 => advancePrbs31 s
  | .fixed20 => advanceFixed20 s

/-- `k` advances at once, as 43_sample_synthesis.md R143 gives them: `IDX` moves `k` places and
`LVL` is `PAT` there, or `LFSR` is jumped `k` states ahead and `LVL` is the last injected bit,
which is its bit 0; log 14. -/
def advanceMany (k : Nat) (s : State) : State :=
  if k = 0 then s
  else
    match s.wPsel with
    | .prbs31 =>
      { s with lfsr := prbsJump k s.lfsr, lvl := (prbsJump k s.lfsr).getLsbD 0 }
    | .fixed20 => { s with idx := idxPlus s.idx k, lvl := pat (idxPlus s.idx k) }

/-! ## Emission and completion -/

/-- `emit(y, last)`: one transfer, `DATA = y mod 2^32` (43_sample_synthesis.md R149,
30_encoding.md R73). -/
def emit (y : Int) (last : Bool) (s : State) : State :=
  { s with out := s.out ++ [⟨BitVec.ofInt 32 y, last⟩] }

/-- The accumulator write-back (43_sample_synthesis.md R144). -/
def setAcc (a : Int) (s : State) : State := { s with acc := BitVec.ofInt 32 a }

/-- The end of a step: the count goes up, and the run's last step completes it
(43_sample_synthesis.md R150, R151); log 15. -/
def countSample (s : State) : State :=
  { s with
    sampleCount := s.sampleCount + 1#32
    busy := if lastSample s then false else s.busy
    done := if lastSample s then true else s.done }

/-! ## The schedule -/

/-- The operation of an action: a host access is decoded, the engine and the reset source perform
their own (10_state.md R21, 30_encoding.md R71, R78). -/
def actionInstr : Action → Instr
  | .host h => decode h
  | .engine => .engineStep
  | .reset => .reset

/-- The next action of the interleaving with the state it acts on, or none where nobody acts; log
1. -/
def nextAction (s : State) : Option (Instr × State) :=
  match s.schedule with
  | [] => none
  | a :: rest => some (actionInstr a, { s with schedule := rest })

/-- The state in which `h` is the next action and the rest of the schedule follows; log 3. -/
def scheduleHop (h : Hop) (s : State) : State := { s with schedule := .host h :: s.schedule }

end Sys2Proof.Machine
end

