-- ==== Sys2Proof/Machine/Commands.lean ====
section
/-! DEFINITION. The meanings of the commands written to `CMD` (41_commands.md R120 to R126) and of
the illegal accesses (40_register_access.md R113, R114). -/

namespace Sys2Proof.Machine

/-- `CMD_NOP`: no operation (41_commands.md R122). -/
def execCmdNop (s : State) : Host.Outcome State Fault Refusal := .next s

/-- `CMD_START`: begins a run, or records the error that refuses it and changes nothing else
(41_commands.md R121). -/
def execCmdStart (s : State) : Host.Outcome State Fault Refusal :=
  match startError s with
  | some c => .next (raiseErr c s)
  | none => .next (beginRun s)

/-- `CMD_ABORT`: stops a run; while idle it has no effect (41_commands.md R123). -/
def execCmdAbort (s : State) : Host.Outcome State Fault Refusal :=
  if s.busy then .next (abortRun s) else .next s

/-- `CMD_SOFT_RESET`: performs the reset action (41_commands.md R124, 70_reset_and_hazards.md
R181). -/
def execCmdSoftReset (s : State) : Host.Outcome State Fault Refusal := .next (resetBlock s)

/-- `CMD_ILLEGAL`: any other word written to `CMD`; the word selects nothing, ILLEGAL_CMD is recorded
(41_commands.md R125). -/
def execCmdIllegal (_v : Word) (s : State) : Host.Outcome State Fault Refusal :=
  .next (raiseErr .illegalCmd s)

/-- `BAD_ACCESS_MISALIGNED`: the offset is never rounded down (40_register_access.md R114). -/
def execBadAccessMisaligned (_off : Offset) (acc : Access) (s : State) :
    Host.Outcome State Fault Refusal := .next (badAccess acc s)

/-- `BAD_ACCESS_UNMAPPED` (40_register_access.md R113). -/
def execBadAccessUnmapped (_off : Offset) (acc : Access) (s : State) :
    Host.Outcome State Fault Refusal := .next (badAccess acc s)

end Sys2Proof.Machine
end

