-- ==== Sys2Proof/Machine/Engine.lean ====
section
/-! DEFINITION. The meanings of the internal actions: the engine step (43_sample_synthesis.md R140
to R151), the pattern advances (42_pattern_sources.md R131, R132) and the hardware reset
(70_reset_and_hazards.md R180). -/

namespace Sys2Proof.Machine

/-- The advances of one step: as many as the accumulator asks for (43_sample_synthesis.md R141 to
R143). -/
def stepAdvances (s : State) : Nat :=
  advanceCount s.acc.toNat s.wSamp.toNat s.wSym.toNat

/-- One enabled engine step (43_sample_synthesis.md R140): advance the pattern and write the
accumulator back, emit the sample, count it. -/
def engineSample (s : State) : State :=
  let pre := s.acc.toNat
  let k := stepAdvances s
  let moved := setAcc (accAfter pre s.wSamp.toNat s.wSym.toNat k) (advanceMany k s)
  let y := sampleCode s.wAmpl.toNat s.wSamp.toNat pre s.lvl moved.lvl
  countSample (emit y (lastSample s) moved)

/-- The advance loop has no end: it crosses, and each turn adds back `T = 0`
(43_sample_synthesis.md R143, 93_implementation_defined.md U3); log 8. -/
def loopDiverges (s : State) : Bool := s.wSym == 0#32 && s.acc.toNat < s.wSamp.toNat

/-- `ENGINE_STEP`: enabled exactly when `STATUS.BUSY = 1`; where it is not enabled it does not
happen, and nothing changes (43_sample_synthesis.md R140; log 2). -/
def execEngineStep (s : State) : Host.Outcome State Fault Refusal :=
  if !s.busy then .next s
  else if loopDiverges s then .fault .advanceLoopDiverges
  else .next (engineSample s)

/-- `ADV_PRBS31` (42_pattern_sources.md R131); log 4. -/
def execAdvPrbs31 (s : State) : Host.Outcome State Fault Refusal := .next (advancePrbs31 s)

/-- `ADV_FIXED20` (42_pattern_sources.md R132); log 4. -/
def execAdvFixed20 (s : State) : Host.Outcome State Fault Refusal := .next (advanceFixed20 s)

/-- `RESET` (70_reset_and_hazards.md R180). -/
def execReset (s : State) : Host.Outcome State Fault Refusal := .next (resetBlock s)

end Sys2Proof.Machine
end

