-- ==== Sys2Proof/Machine/RegisterReads.lean ====
section
/-! DEFINITION. The meanings of the register reads (40_register_access.md R90 to R103): each returns
the register's value to the host and changes nothing else. -/

namespace Sys2Proof.Machine

/-- `RD_ID` (40_register_access.md R91). -/
def execRdId (s : State) : Host.Outcome State Fault Refusal := .next (readReg .id s)

/-- `RD_CTRL` (40_register_access.md R92). -/
def execRdCtrl (s : State) : Host.Outcome State Fault Refusal := .next (readReg .ctrl s)

/-- `RD_SEED` (40_register_access.md R93). -/
def execRdSeed (s : State) : Host.Outcome State Fault Refusal := .next (readReg .seed s)

/-- `RD_SYM_PERIOD` (40_register_access.md R94). -/
def execRdSymPeriod (s : State) : Host.Outcome State Fault Refusal := .next (readReg .symPeriod s)

/-- `RD_SAMP_PERIOD` (40_register_access.md R95). -/
def execRdSampPeriod (s : State) : Host.Outcome State Fault Refusal := .next (readReg .sampPeriod s)

/-- `RD_DEPTH` (40_register_access.md R96). -/
def execRdDepth (s : State) : Host.Outcome State Fault Refusal := .next (readReg .depth s)

/-- `RD_AMPLITUDE` (40_register_access.md R97). -/
def execRdAmplitude (s : State) : Host.Outcome State Fault Refusal := .next (readReg .amplitude s)

/-- `RD_CMD` (40_register_access.md R98). -/
def execRdCmd (s : State) : Host.Outcome State Fault Refusal := .next (readReg .cmd s)

/-- `RD_STATUS` (40_register_access.md R99). -/
def execRdStatus (s : State) : Host.Outcome State Fault Refusal := .next (readReg .status s)

/-- `RD_SAMPLE_COUNT` (40_register_access.md R100). -/
def execRdSampleCount (s : State) : Host.Outcome State Fault Refusal := .next (readReg .sampleCount s)

/-- `RD_ACC` (40_register_access.md R101). -/
def execRdAcc (s : State) : Host.Outcome State Fault Refusal := .next (readReg .acc s)

/-- `RD_LFSR` (40_register_access.md R102). -/
def execRdLfsr (s : State) : Host.Outcome State Fault Refusal := .next (readReg .lfsr s)

/-- `RD_PSTATE` (40_register_access.md R103). -/
def execRdPstate (s : State) : Host.Outcome State Fault Refusal := .next (readReg .pstate s)

end Sys2Proof.Machine
end

