-- ==== Sys2Proof/Machine/RegisterWrites.lean ====
section
/-! DEFINITION. The meanings of the register writes (40_register_access.md R104 to R109, R111) and
of the writes to read-only registers (R112). A write takes effect in the register only: the working
copies of a run keep their values (10_state.md R36, 70_reset_and_hazards.md R186). -/

namespace Sys2Proof.Machine

/-- `WR_CTRL` (40_register_access.md R104). -/
def execWrCtrl (v : Word) (s : State) : Host.Outcome State Fault Refusal :=
  .next { s with psel := ctrlPsel v, ieDone := ctrlIeDone v, ieErr := ctrlIeErr v }

/-- `WR_SEED` (40_register_access.md R105). -/
def execWrSeed (v : Word) (s : State) : Host.Outcome State Fault Refusal :=
  .next { s with seed := seedField v }

/-- `WR_SYM_PERIOD` (40_register_access.md R106). -/
def execWrSymPeriod (v : Word) (s : State) : Host.Outcome State Fault Refusal :=
  .next { s with symPeriod := v }

/-- `WR_SAMP_PERIOD` (40_register_access.md R107). -/
def execWrSampPeriod (v : Word) (s : State) : Host.Outcome State Fault Refusal :=
  .next { s with sampPeriod := v }

/-- `WR_DEPTH` (40_register_access.md R108). -/
def execWrDepth (v : Word) (s : State) : Host.Outcome State Fault Refusal :=
  .next { s with depth := v }

/-- `WR_AMPLITUDE` (40_register_access.md R109). -/
def execWrAmplitude (v : Word) (s : State) : Host.Outcome State Fault Refusal :=
  .next { s with amplitude := amplitudeField v }

/-- `WR_STATUS`: the W1C acknowledge (40_register_access.md R111). -/
def execWrStatus (v : Word) (s : State) : Host.Outcome State Fault Refusal :=
  .next (ackStatus v s)

/-- `WR_ID`: the operand is ignored, BAD_ACCESS is recorded (40_register_access.md R112). -/
def execWrId (v : Word) (s : State) : Host.Outcome State Fault Refusal :=
  .next (badAccess (.write v) s)

/-- `WR_SAMPLE_COUNT`: the operand is ignored, BAD_ACCESS is recorded (40_register_access.md
R112). -/
def execWrSampleCount (v : Word) (s : State) : Host.Outcome State Fault Refusal :=
  .next (badAccess (.write v) s)

/-- `WR_ACC`: the operand is ignored, BAD_ACCESS is recorded (40_register_access.md R112). -/
def execWrAcc (v : Word) (s : State) : Host.Outcome State Fault Refusal :=
  .next (badAccess (.write v) s)

/-- `WR_LFSR`: the operand is ignored, BAD_ACCESS is recorded (40_register_access.md R112). -/
def execWrLfsr (v : Word) (s : State) : Host.Outcome State Fault Refusal :=
  .next (badAccess (.write v) s)

/-- `WR_PSTATE`: the operand is ignored, BAD_ACCESS is recorded (40_register_access.md R112). -/
def execWrPstate (v : Word) (s : State) : Host.Outcome State Fault Refusal :=
  .next (badAccess (.write v) s)

end Sys2Proof.Machine
end

