-- ==== Sys2Proof/Machine/Dispatch.lean ====
section
/-! DEFINITION. The dispatch: one arm per constructor of Instr. -/

namespace Sys2Proof.Machine

def exec (i : Instr) (s : State) : Host.Outcome State Fault Refusal :=
  match i with
  | .rdId => Sys2Proof.Machine.execRdId s
  | .rdCtrl => Sys2Proof.Machine.execRdCtrl s
  | .rdSeed => Sys2Proof.Machine.execRdSeed s
  | .rdSymPeriod => Sys2Proof.Machine.execRdSymPeriod s
  | .rdSampPeriod => Sys2Proof.Machine.execRdSampPeriod s
  | .rdDepth => Sys2Proof.Machine.execRdDepth s
  | .rdAmplitude => Sys2Proof.Machine.execRdAmplitude s
  | .rdCmd => Sys2Proof.Machine.execRdCmd s
  | .rdStatus => Sys2Proof.Machine.execRdStatus s
  | .rdSampleCount => Sys2Proof.Machine.execRdSampleCount s
  | .rdAcc => Sys2Proof.Machine.execRdAcc s
  | .rdLfsr => Sys2Proof.Machine.execRdLfsr s
  | .rdPstate => Sys2Proof.Machine.execRdPstate s
  | .wrCtrl v => Sys2Proof.Machine.execWrCtrl v s
  | .wrSeed v => Sys2Proof.Machine.execWrSeed v s
  | .wrSymPeriod v => Sys2Proof.Machine.execWrSymPeriod v s
  | .wrSampPeriod v => Sys2Proof.Machine.execWrSampPeriod v s
  | .wrDepth v => Sys2Proof.Machine.execWrDepth v s
  | .wrAmplitude v => Sys2Proof.Machine.execWrAmplitude v s
  | .wrStatus v => Sys2Proof.Machine.execWrStatus v s
  | .wrId v => Sys2Proof.Machine.execWrId v s
  | .wrSampleCount v => Sys2Proof.Machine.execWrSampleCount v s
  | .wrAcc v => Sys2Proof.Machine.execWrAcc v s
  | .wrLfsr v => Sys2Proof.Machine.execWrLfsr v s
  | .wrPstate v => Sys2Proof.Machine.execWrPstate v s
  | .cmdNop => Sys2Proof.Machine.execCmdNop s
  | .cmdStart => Sys2Proof.Machine.execCmdStart s
  | .cmdAbort => Sys2Proof.Machine.execCmdAbort s
  | .cmdSoftReset => Sys2Proof.Machine.execCmdSoftReset s
  | .cmdIllegal v => Sys2Proof.Machine.execCmdIllegal v s
  | .badAccessMisaligned off acc => Sys2Proof.Machine.execBadAccessMisaligned off acc s
  | .badAccessUnmapped off acc => Sys2Proof.Machine.execBadAccessUnmapped off acc s
  | .engineStep => Sys2Proof.Machine.execEngineStep s
  | .advPrbs31 => Sys2Proof.Machine.execAdvPrbs31 s
  | .advFixed20 => Sys2Proof.Machine.execAdvFixed20 s
  | .reset => Sys2Proof.Machine.execReset s

end Sys2Proof.Machine
end

