-- ==== Sys2Proof/Machine/Step.lean ====
section
/-! DEFINITION. One step of the machine: the next action of the schedule is performed (10_state.md
R21). -/

namespace Sys2Proof.Machine

/-- One atomic action of the interleaving. Where the schedule is empty nobody acts, and the block
keeps its state (20_memory.md R60, 60_exceptions.md R176); log 2. -/
def step (s : State) : Host.Outcome State Fault Refusal :=
  match nextAction s with
  | none => .next s
  | some (i, t) => exec i t

/-- `s` with the host operation of a table word as its next action (log 3); a number with more than
41 bits is no host operation and schedules nothing. -/
def State.withFetchWord (s : State) (nbits w : Nat) : State :=
  match hopOfTableWord nbits w with
  | .ok h => scheduleHop h s
  | .error _ => s

end Sys2Proof.Machine
end

