-- ==== Sys2Proof/Machine/Asm.lean ====
section
/-! DEFINITION. The host-operation assembly of 30_encoding.md R79 and R80: statements, field lists,
the pseudo-instructions and the words they assemble to. The text form (comments, `expect`
annotations, the spelling of numbers) is notation and carries no meaning for the block; log 19. -/

namespace Sys2Proof.Asm

/-- The field names of 30_encoding.md R72; `value` is the whole word of a period or of `DEPTH`. -/
inductive Field where
  | psel | ieDone | ieErr | seed | value | ampl | op | done | err | aborted
  deriving DecidableEq, Repr

/-- The lowest bit and the width of a register's field (30_encoding.md R72), none where the register
has no field of that name. -/
def fieldBits : Reg → Field → Option (Nat × Nat)
  | .ctrl, .psel => some (0, 1)
  | .ctrl, .ieDone => some (1, 1)
  | .ctrl, .ieErr => some (2, 1)
  | .seed, .seed => some (0, 31)
  | .symPeriod, .value => some (0, 32)
  | .sampPeriod, .value => some (0, 32)
  | .depth, .value => some (0, 32)
  | .amplitude, .ampl => some (0, 16)
  | .cmd, .op => some (0, 4)
  | .status, .done => some (1, 1)
  | .status, .err => some (2, 1)
  | .status, .aborted => some (3, 1)
  | _, _ => none

/-- `REG`: a register name, or `@0xNN` for a raw offset (30_encoding.md R79). -/
inductive Target where
  | reg (r : Reg)
  | raw (off : Offset)
  deriving DecidableEq, Repr

/-- `IMM`: a 32-bit unsigned value, or a field list (30_encoding.md R79). -/
inductive Imm where
  | value (v : Nat)
  | fields (fs : List (Field × Nat))
  deriving DecidableEq, Repr

/-- A statement: `rd`, `wr` (30_encoding.md R79) or a pseudo-instruction (R80). -/
inductive Stmt where
  | rd (t : Target)
  | wr (t : Target) (imm : Imm)
  | nop
  | start
  | abort
  | sreset
  | ackDone
  | ackErr
  | ackAbort
  | ackAll
  | poll (t : Target) (mask val : Word)
  deriving DecidableEq, Repr

/-- `off(REG)` (30_encoding.md R79). -/
def targetOffset : Target → Offset
  | .reg r => regOffset r
  | .raw off => off

/-- A field list: the OR of each value shifted to its field's position; none, an assembly error, for
a value too wide for its field or a name the register has no field of (30_encoding.md R79). -/
def fieldsWord (r : Reg) : List (Field × Nat) → Option Word
  | [] => some 0#32
  | (f, v) :: fs =>
    match fieldBits r f, fieldsWord r fs with
    | some (lo, width), some w =>
      if v < 2 ^ width then some (BitVec.ofNat 32 (v * 2 ^ lo) ||| w) else none
    | _, _ => none

/-- The word of an `IMM`; a raw offset has no field names (30_encoding.md R79). -/
def immWord (t : Target) (imm : Imm) : Option Word :=
  match imm, t with
  | .value v, _ => if v < 2 ^ 32 then some (BitVec.ofNat 32 v) else none
  | .fields fs, .reg r => fieldsWord r fs
  | .fields _, .raw _ => none

/-- What a pseudo-instruction expands to; every other statement stands for itself. `poll` repeats the
read (30_encoding.md R80). -/
def expand : Stmt → Stmt
  | .nop => .wr (.reg .cmd) (.value 0)
  | .start => .wr (.reg .cmd) (.value 1)
  | .abort => .wr (.reg .cmd) (.value 2)
  | .sreset => .wr (.reg .cmd) (.value 3)
  | .ackDone => .wr (.reg .status) (.value 2)
  | .ackErr => .wr (.reg .status) (.value 4)
  | .ackAbort => .wr (.reg .status) (.value 8)
  | .ackAll => .wr (.reg .status) (.value 14)
  | .poll t _ _ => .rd t
  | .rd t => .rd t
  | .wr t imm => .wr t imm

/-- The `HOP` of a statement, the one that is repeated in the case of `poll`; none is an assembly
error (30_encoding.md R79, R80). -/
def assemble (st : Stmt) : Option Hop :=
  match expand st with
  | .rd t => some (accessHop (targetOffset t) .read)
  | .wr t imm => (immWord t imm).map fun w => accessHop (targetOffset t) (.write w)
  | _ => none

/-- `poll` repeats its read until this holds of the value returned (30_encoding.md R80). -/
def pollDone (mask val v : Word) : Bool := v &&& mask == val

end Sys2Proof.Asm
end

