-- ==== Sys2Proof/Safety.lean ====
section
/-! DEFINITION. What counts as a safe run, in the terms the statements use: the invariant of every
reachable state, the phase law that ties the accumulator and the FIXED20 level to the sample count
(43_sample_synthesis.md R155), the loop of 43_sample_synthesis.md R140 written turn by turn, the
ideal waveform of a run, and the actions that leave a run alone. -/

namespace Sys2Proof.Safety

open Sys2Proof.Machine

/-- The source's literal "`00111110101001000101`", left to right (42_pattern_sources.md R130). -/
def fixed20Literal : List Bool :=
  [false, false, true, true, true, true, true, false, true, false,
   true, false, false, true, false, false, false, true, false, true]

/-! ## The invariant of reachable states -/

/-- `ERR = 0` implies `ERRCODE = 0`; `ERR = 1` implies `ERRCODE ∈ {1..6}` (10_state.md R32). -/
def ErrRecordOk (s : State) : Prop :=
  (s.err = false → s.errcode = 0#4) ∧ (s.err = true → 1 ≤ s.errcode.toNat ∧ s.errcode.toNat ≤ 6)

/-- `DONE` and `ABORTED` never hold together (10_state.md R32), and neither holds during a run
(41_commands.md R121). -/
def FlagsOk (s : State) : Prop :=
  ¬ (s.done = true ∧ s.aborted = true) ∧ (s.busy = true → s.done = false ∧ s.aborted = false)

/-- `IDX` is 0 to 19 (10_state.md R37) and stays 0 in a PRBS31 run (42_pattern_sources.md R134). -/
def IdxOk (s : State) : Prop := s.idx.toNat < 20 ∧ (s.wPsel = .prbs31 → s.idx = 0#5)

/-- The working copies are those of an accepted START (41_commands.md R121), or all 0 with no run
since, as reset leaves them (10_state.md R44). -/
def WorkingCopiesOk (s : State) : Prop :=
  (s.wSym ≠ 0#32 ∧ s.wSamp ≠ 0#32 ∧ s.wDepth ≠ 0#32) ∨
    (s.wSym = 0#32 ∧ s.wSamp = 0#32 ∧ s.wDepth = 0#32 ∧ s.wAmpl = 0#16 ∧ s.busy = false ∧
      s.done = false)

/-- The counter's range (10_state.md R33): below `N` during a run, `N` after a completed one, below
`N` after an aborted one (70_reset_and_hazards.md R194). -/
def CountOk (s : State) : Prop :=
  s.sampleCount.toNat ≤ s.wDepth.toNat ∧
    (s.busy = true → s.sampleCount.toNat < s.wDepth.toNat) ∧
    (s.done = true → s.sampleCount = s.wDepth) ∧
    (s.aborted = true → s.sampleCount.toNat < s.wDepth.toNat)

/-- Between steps `0 <= ACC <= T` (10_state.md R34, 43_sample_synthesis.md R152). -/
def AccOk (s : State) : Prop := s.acc.toNat ≤ s.wSym.toNat

/-- Every transfer's sample satisfies `-32768 <= y <= 32768` (10_state.md R40). -/
def OutOk (s : State) : Prop := ∀ t ∈ s.out, -32768 ≤ t.data.toInt ∧ t.data.toInt ≤ 32768

/-- The transfers of the current or most recent run are in `OUT`, as many as `SAMPLE_COUNT` says, with
`LAST` on the one that makes `N` and on no other (20_memory.md R61, 10_state.md R40). -/
def RunInOut (s : State) (run : List Transfer) : Prop :=
  (∃ earlier : List Transfer, s.out = earlier ++ run) ∧
    run.length = s.sampleCount.toNat ∧
    ∀ (n : Nat) (h : n < run.length), run[n].last = (n + 1 == s.wDepth.toNat)

/-- The invariant that every action keeps. -/
structure Inv (s : State) : Prop where
  errRecord : ErrRecordOk s
  flags : FlagsOk s
  idx : IdxOk s
  working : WorkingCopiesOk s
  count : CountOk s
  acc : AccOk s
  out : OutOk s
  run : ∃ run : List Transfer, RunInOut s run

/-! ## The phase law -/

/-- `K(n)`, the advances in the first `n` steps of a run: 0 for `n = 0`, else `ceil(n*S/T) - 1`
(43_sample_synthesis.md R155). -/
def advancesIn (n samp sym : Nat) : Nat := if n = 0 then 0 else (n * samp + sym - 1) / sym - 1

/-- The accumulator after `n` steps, `(K(n) + 1)*T - n*S` (43_sample_synthesis.md R155). -/
def idealAcc (n samp sym : Nat) : Int := (advancesIn n samp sym + 1) * sym - n * samp

/-- After a START the accumulator is exactly where `n = SAMPLE_COUNT` steps put it, and in a FIXED20
run the index and the level are those of symbol `K(n)` (43_sample_synthesis.md R155,
42_pattern_sources.md R137). -/
def PhaseOk (s : State) : Prop :=
  s.wSym ≠ 0#32 →
    (s.acc.toNat : Int) = idealAcc s.sampleCount.toNat s.wSamp.toNat s.wSym.toNat ∧
    (s.wPsel = .fixed20 →
      s.idx.toNat = advancesIn s.sampleCount.toNat s.wSamp.toNat s.wSym.toNat % 20 ∧
      s.lvl = fixed20Literal.getD s.idx.toNat false)

/-! ## The engine step, turn by turn -/

/-- `while a < 0: ADVANCE; a <- a + T` (43_sample_synthesis.md R143), for at most `fuel` turns: the
accumulator and the state it ends with, or none where it has not ended. -/
def advanceLoop : Nat → Int → State → Option (Int × State)
  | 0, a, s => if a < 0 then none else some (a, s)
  | fuel + 1, a, s =>
    if a < 0 then advanceLoop fuel (a + (s.wSym.toNat : Int)) (advance s) else some (a, s)

/-- The sample of 43_sample_synthesis.md R145 to R148, from the level before and after the step. -/
def sampleOf (ampl samp : Nat) (pre : Int) (prev lvl : Bool) : Int :=
  match prev, lvl with
  | true, true => rha ampl 2
  | false, false => -rha ampl 2
  | false, true => rha (ampl * (samp - 2 * pre)) (2 * samp)
  | true, false => rha (ampl * (2 * pre - samp)) (2 * samp)

/-- The pseudocode of 43_sample_synthesis.md R140, with the loop run for at most `fuel` turns. -/
def engineStepByTurns (fuel : Nat) (s : State) : Option State :=
  let n := s.sampleCount.toNat
  let pre : Int := s.acc.toNat
  (advanceLoop fuel (pre - s.wSamp.toNat) s).map fun (a, u) =>
    let last := n + 1 == s.wDepth.toNat
    { u with
      acc := BitVec.ofInt 32 a
      out := u.out ++ [⟨BitVec.ofInt 32 (sampleOf s.wAmpl.toNat s.wSamp.toNat pre s.lvl u.lvl), last⟩]
      sampleCount := BitVec.ofNat 32 (n + 1)
      busy := if last then false else u.busy
      done := if last then true else u.done }

/-! ## The ideal waveform of a run -/

/-- The level of symbol `j` of a run: `PAT[j mod 20]` (42_pattern_sources.md R137); or 0 for symbol
0 and the `j`-th injected bit from the seed after it (R138). -/
def symbolLevel (p : Pattern) (seed : Lfsr) (j : Nat) : Bool :=
  match p, j with
  | .fixed20, j => fixed20Literal.getD (j % 20) false
  | .prbs31, 0 => false
  | .prbs31, j + 1 => prbsInject (prbsNext^[j] seed)

/-- The configuration a START latches (10_state.md R36, 42_pattern_sources.md R133). -/
structure RunConfig where
  pattern : Pattern
  seed : Lfsr
  sym : Nat
  samp : Nat
  depth : Nat
  ampl : Nat
  deriving DecidableEq, Repr

/-- The configuration registers as a START would latch them (41_commands.md R121). -/
def configOf (s : State) : RunConfig where
  pattern := s.psel
  seed := s.seed
  sym := s.symPeriod.toNat
  samp := s.sampPeriod.toNat
  depth := s.depth.toNat
  ampl := s.amplitude.toNat

/-- Every parameter a START checks is positive (41_commands.md R121). -/
def Startable (c : RunConfig) : Prop := 0 < c.samp ∧ 0 < c.sym ∧ 0 < c.depth

/-- Transfer `n` of a run: the level of symbol `K(n)` before the step, of symbol `K(n+1)` after it,
and the accumulator of R155 as the pre-decrement value (43_sample_synthesis.md R145 to R149,
R155). -/
def idealTransfer (c : RunConfig) (n : Nat) : Transfer where
  data := BitVec.ofInt 32 (sampleOf c.ampl c.samp (idealAcc n c.samp c.sym)
    (symbolLevel c.pattern c.seed (advancesIn n c.samp c.sym))
    (symbolLevel c.pattern c.seed (advancesIn (n + 1) c.samp c.sym)))
  last := n + 1 == c.depth

/-! ## Schedules -/

/-- An action that neither ends a run nor asks for a new one: an engine step, or a host access other
than ABORT, SOFT_RESET and START. -/
def leavesRunAlone : Action → Bool
  | .engine => true
  | .reset => false
  | .host h => decode h != .cmdAbort && decode h != .cmdSoftReset && decode h != .cmdStart

/-- The engine steps a schedule asks for. -/
def engineActions (as : List Action) : Nat := as.count .engine

/-- `k` steps of the machine (Host.Core.run). -/
def runFor (k : Nat) (s : State) : Host.Outcome State Fault Refusal := Sys2Proof.core.run k s

/-- The host operation `start` (30_encoding.md R80). -/
def startHop : Hop := 0x11C00000001#41

/-- The host operation `abort` (30_encoding.md R80). -/
def abortHop : Hop := 0x11C00000002#41

/-- The host operation `ack_done` (30_encoding.md R80). -/
def ackDoneHop : Hop := 0x12000000002#41

end Sys2Proof.Safety
end

