-- ==== Sys2Proof/Certificates/Slice0/Obligations.lean ====
section
/-! DEFINITION. The statements about the model, for the provers. -/

open Sys2Proof Sys2Proof.Machine Sys2Proof.Safety Sys2Proof.Asm

/-! ## Encoding -/

/-- Decoding the word of a well-formed operation gives the operation back, with every operand
(30_encoding.md R70, R71, R81). -/
def Obligations.DecodeOfEncode : Prop :=
  ∀ (i : Instr) (h : Hop), WellFormed i = true → encode i = some h → decode h = i

/-- Every one of the 2^41 words decodes to a well-formed operation whose word is that word again,
with the data of a read written as 0 (30_encoding.md R70, R71). -/
def Obligations.EncodeOfDecode : Prop :=
  ∀ h : Hop, WellFormed (decode h) = true ∧
    encode (decode h) = some (mkHop (hopWr h) (hopOff h) (if hopWr h then hopData h else 0#32))

/-- The decoder follows the lines of 30_encoding.md R71 in their order, and an aligned offset up to
`0x30` is a register's. -/
def Obligations.DecodeFollowsTheOrderedLines : Prop :=
  ∀ h : Hop,
    ((hopOff h).extractLsb' 0 2 ≠ 0#2 →
      decode h = .badAccessMisaligned (hopOff h) (if hopWr h then .write (hopData h) else .read)) ∧
    ((hopOff h).extractLsb' 0 2 = 0#2 → 0x30#8 < hopOff h →
      decode h = .badAccessUnmapped (hopOff h) (if hopWr h then .write (hopData h) else .read)) ∧
    (∀ r : Reg, hopOff h = regOffset r → hopWr h = false → decode h = readOf r) ∧
    (∀ r : Reg, hopOff h = regOffset r → hopWr h = true → r ≠ .cmd →
      decode h = writeOf r (hopData h)) ∧
    (hopOff h = 0x1C#8 → hopWr h = true → decode h = commandOf (hopData h)) ∧
    ((hopOff h).extractLsb' 0 2 = 0#2 → hopOff h ≤ 0x30#8 → ∃ r : Reg, hopOff h = regOffset r)

/-- A write to `CMD` selects a command only when the whole data word is one of the four listed words
(30_encoding.md R74, R75). -/
def Obligations.OnlyFourWordsAreCommands : Prop :=
  ∀ h : Hop, hopWr h = true → hopOff h = 0x1C#8 →
    (decode h = .cmdNop ↔ hopData h = 0#32) ∧
    (decode h = .cmdStart ↔ hopData h = 1#32) ∧
    (decode h = .cmdAbort ↔ hopData h = 2#32) ∧
    (decode h = .cmdSoftReset ↔ hopData h = 3#32) ∧
    (decode h = .cmdIllegal (hopData h) ↔ 4 ≤ (hopData h).toNat)

/-- The match and mask rows of 30_encoding.md R81 are exactly the decoder's: a decoded word carries
its row, a word that carries a row decodes to that row, and a word that carries none is one of the
illegal classes. -/
def Obligations.TableRowsAreTheDecoder : Prop :=
  (∀ h m k : Hop, tableRow (decode h) = some (m, k) → h &&& k = m) ∧
  (∀ (i : Instr) (h m k : Hop), tableRow i = some (m, k) → h &&& k = m →
    tableRow (decode h) = some (m, k)) ∧
  (∀ h : Hop, (∀ (i : Instr) (m k : Hop), tableRow i = some (m, k) → h &&& k ≠ m) →
    (∃ v, decode h = .cmdIllegal v) ∨ (∃ off acc, decode h = .badAccessMisaligned off acc) ∨
      (∃ off acc, decode h = .badAccessUnmapped off acc))

/-- The four internal operations, and only they, have no word, and no word decodes to one of them
(30_encoding.md R78). -/
def Obligations.InternalOperationsHaveNoWord : Prop :=
  (∀ i : Instr, encode i = none ↔
    i = .engineStep ∨ i = .advPrbs31 ∨ i = .advFixed20 ∨ i = .reset) ∧
  (∀ h : Hop, decode h ≠ .engineStep ∧ decode h ≠ .advPrbs31 ∧ decode h ≠ .advFixed20 ∧
    decode h ≠ .reset)

/-- Words written out from 30_encoding.md R80 and R81 decode to the operations they stand for, the
pseudo-instructions among them. -/
def Obligations.ListedWordsDecode : Prop :=
  decode 0x11C00000000#41 = .cmdNop ∧ decode 0x11C00000001#41 = .cmdStart ∧
  decode 0x11C00000002#41 = .cmdAbort ∧ decode 0x11C00000003#41 = .cmdSoftReset ∧
  decode 0x12000000002#41 = .wrStatus 2#32 ∧ decode 0x12000000004#41 = .wrStatus 4#32 ∧
  decode 0x12000000008#41 = .wrStatus 8#32 ∧ decode 0x1200000000E#41 = .wrStatus 14#32 ∧
  decode 0x02000000000#41 = .rdStatus ∧ decode 0x11000000001#41 = .wrSampPeriod 1#32 ∧
  decode 0x03000000000#41 = .rdPstate ∧ decode 0x10000000000#41 = .wrId 0#32 ∧
  decode 0x11C00000011#41 = .cmdIllegal 17#32 ∧
  decode 0x10500000001#41 = .badAccessMisaligned 0x05#8 (.write 1#32) ∧
  decode 0x04000000000#41 = .badAccessUnmapped 0x40#8 .read

/-- `BASE` is a multiple of 256, an address in the 256 bytes from `BASE` is the access at its low
eight bits, and no other address is an access of the block (20_memory.md R50). That a bus access
outside the window is none is the model's reading of the same rule. -/
def Obligations.WindowIsTheAddressSpace : Prop :=
  256 ∣ Config.base ∧
  ∀ (addr : Nat) (acc : Access),
    (Config.base ≤ addr → addr < Config.base + 256 →
      busHop addr acc = some (accessHop (BitVec.ofNat 8 addr) acc)) ∧
    (addr < Config.base ∨ Config.base + 256 ≤ addr → busHop addr acc = none)

/-- The pseudo-instructions assemble to the words 30_encoding.md R80 lists, and `poll` to the read of
its register that the host repeats. -/
def Obligations.PseudoInstructionsExpand : Prop :=
  assemble .nop = some 0x11C00000000#41 ∧ assemble .start = some 0x11C00000001#41 ∧
  assemble .abort = some 0x11C00000002#41 ∧ assemble .sreset = some 0x11C00000003#41 ∧
  assemble .ackDone = some 0x12000000002#41 ∧ assemble .ackErr = some 0x12000000004#41 ∧
  assemble .ackAbort = some 0x12000000008#41 ∧ assemble .ackAll = some 0x1200000000E#41 ∧
  ∀ (r : Reg) (mask val v : Word),
    assemble (.poll (.reg r) mask val) = some (mkHop false (regOffset r) 0#32) ∧
    (pollDone mask val v = true ↔ v &&& mask = val)

/-- `rd` and `wr` assemble to the words of 30_encoding.md R79, for a register or a raw offset; a field
list is the OR of its shifted values, and a value too wide, for the word or for its field, is an
assembly error. -/
def Obligations.StatementsAssemble : Prop :=
  (∀ (r : Reg) (off : Offset) (n : Nat),
    assemble (.rd (.reg r)) = some (mkHop false (regOffset r) 0#32) ∧
    assemble (.rd (.raw off)) = some (mkHop false off 0#32) ∧
    (n < 2 ^ 32 →
      assemble (.wr (.reg r) (.value n)) = some (mkHop true (regOffset r) (BitVec.ofNat 32 n)) ∧
      assemble (.wr (.raw off) (.value n)) = some (mkHop true off (BitVec.ofNat 32 n))) ∧
    (2 ^ 32 ≤ n → assemble (.wr (.reg r) (.value n)) = none ∧
      assemble (.wr (.raw off) (.value n)) = none)) ∧
  (∀ (r : Reg) (f : Field) (v lo width : Nat) (fs : List (Field × Nat)) (w : Word),
    fieldBits r f = some (lo, width) →
    (2 ^ width ≤ v → assemble (.wr (.reg r) (.fields ((f, v) :: fs))) = none) ∧
    (v < 2 ^ width →
      v * 2 ^ lo < 2 ^ 32 ∧
      assemble (.wr (.reg r) (.fields [(f, v)])) =
        some (mkHop true (regOffset r) (BitVec.ofNat 32 (v * 2 ^ lo))) ∧
      (assemble (.wr (.reg r) (.fields fs)) = some (mkHop true (regOffset r) w) →
        assemble (.wr (.reg r) (.fields ((f, v) :: fs))) =
          some (mkHop true (regOffset r) (BitVec.ofNat 32 (v * 2 ^ lo) ||| w)))))

/-! ## Steps -/

/-- A step performs the next action of the schedule on the state whose schedule is the rest: a host
access runs the operation its word decodes to, the engine its step, the reset source its reset; with
no action scheduled nothing changes. The schedule, and what a step does where it is empty, are the
model's (logs 1 and 2). -/
def Obligations.StepPerformsTheNextAction : Prop :=
  ∀ (s : State) (rest : List Action),
    (s.schedule = [] → step s = .next s) ∧
    (∀ h : Hop, s.schedule = .host h :: rest →
      step s = exec (decode h) { s with schedule := rest }) ∧
    (s.schedule = .engine :: rest → step s = exec .engineStep { s with schedule := rest }) ∧
    (s.schedule = .reset :: rest → step s = exec .reset { s with schedule := rest })

/-- A table word of at most 41 significant bits decodes, and after withFetchWord the very next step
is that operation on the state as it was (logs 3 and 13, the model's). -/
def Obligations.TableWordRunsNext : Prop :=
  ∀ (s : State) (nbits w : Nat), w % 2 ^ nbits < 2 ^ 41 →
    decodeTableWord nbits w = some (decode (BitVec.ofNat 41 (w % 2 ^ nbits))) ∧
    step (s.withFetchWord nbits w) = exec (decode (BitVec.ofNat 41 (w % 2 ^ nbits))) s

/-! ## Register reads -/

/-- Every register read completes, returns the register's value with every reserved bit 0 and
changes nothing else (40_register_access.md R90). That the values a host is given are kept as a list
is the model's (log 5). -/
def Obligations.ReadsReturnTheRegister : Prop :=
  ∀ s : State,
    exec .rdId s = .next { s with reads := s.reads ++ [0x42505331#32] } ∧
    exec .rdSymPeriod s = .next { s with reads := s.reads ++ [s.symPeriod] } ∧
    exec .rdSampPeriod s = .next { s with reads := s.reads ++ [s.sampPeriod] } ∧
    exec .rdDepth s = .next { s with reads := s.reads ++ [s.depth] } ∧
    exec .rdCmd s = .next { s with reads := s.reads ++ [0#32] } ∧
    exec .rdSampleCount s = .next { s with reads := s.reads ++ [s.sampleCount] } ∧
    exec .rdAcc s = .next { s with reads := s.reads ++ [s.acc] } ∧
    (∃ v : Word, exec .rdCtrl s = .next { s with reads := s.reads ++ [v] } ∧
      v.toNat = (if s.psel = .fixed20 then 1 else 0) + 2 * s.ieDone.toNat + 4 * s.ieErr.toNat) ∧
    (∃ v : Word, exec .rdSeed s = .next { s with reads := s.reads ++ [v] } ∧
      v.toNat = s.seed.toNat) ∧
    (∃ v : Word, exec .rdAmplitude s = .next { s with reads := s.reads ++ [v] } ∧
      v.toNat = s.amplitude.toNat) ∧
    (∃ v : Word, exec .rdStatus s = .next { s with reads := s.reads ++ [v] } ∧
      v.toNat = s.busy.toNat + 2 * s.done.toNat + 4 * s.err.toNat + 8 * s.aborted.toNat
        + 256 * s.errcode.toNat) ∧
    (∃ v : Word, exec .rdLfsr s = .next { s with reads := s.reads ++ [v] } ∧
      v.toNat = s.lfsr.toNat) ∧
    (∃ v : Word, exec .rdPstate s = .next { s with reads := s.reads ++ [v] } ∧
      v.toNat = s.idx.toNat + 256 * s.lvl.toNat)

/-! ## Register writes -/

/-- Each configuration write completes, takes its fields from the same bits of the word and changes
only its register; `IRQ` follows the enables at once (40_register_access.md R104 to R109). -/
def Obligations.ConfigurationWritesSetTheirFields : Prop :=
  ∀ (s : State) (v : Word),
    (∃ t : State, exec (.wrCtrl v) s = .next t ∧
      t = { s with psel := t.psel, ieDone := v.getLsbD 1, ieErr := v.getLsbD 2 } ∧
      (t.psel = .fixed20 ↔ v.getLsbD 0 = true) ∧
      irq t = ((s.done && v.getLsbD 1) || (s.err && v.getLsbD 2))) ∧
    (∃ t : State, exec (.wrSeed v) s = .next t ∧ t = { s with seed := t.seed } ∧
      t.seed.toNat = v.toNat % 2 ^ 31) ∧
    exec (.wrSymPeriod v) s = .next { s with symPeriod := v } ∧
    exec (.wrSampPeriod v) s = .next { s with sampPeriod := v } ∧
    exec (.wrDepth v) s = .next { s with depth := v } ∧
    (∃ t : State, exec (.wrAmplitude v) s = .next t ∧ t = { s with amplitude := t.amplitude } ∧
      t.amplitude.toNat = v.toNat % 2 ^ 16)

/-- A configuration register read right after it is written returns the word with its reserved bits
0 (30_encoding.md R72, R76). -/
def Obligations.WrittenRegistersReadBack : Prop :=
  ∀ (s : State) (v : Word),
    (∃ t u : State, exec (.wrCtrl v) s = .next t ∧ exec .rdCtrl t = .next u ∧
      u.reads = s.reads ++ [v &&& 0x00000007#32]) ∧
    (∃ t u : State, exec (.wrSeed v) s = .next t ∧ exec .rdSeed t = .next u ∧
      u.reads = s.reads ++ [v &&& 0x7FFFFFFF#32]) ∧
    (∃ t u : State, exec (.wrSymPeriod v) s = .next t ∧ exec .rdSymPeriod t = .next u ∧
      u.reads = s.reads ++ [v]) ∧
    (∃ t u : State, exec (.wrSampPeriod v) s = .next t ∧ exec .rdSampPeriod t = .next u ∧
      u.reads = s.reads ++ [v]) ∧
    (∃ t u : State, exec (.wrDepth v) s = .next t ∧ exec .rdDepth t = .next u ∧
      u.reads = s.reads ++ [v]) ∧
    (∃ t u : State, exec (.wrAmplitude v) s = .next t ∧ exec .rdAmplitude t = .next u ∧
      u.reads = s.reads ++ [v &&& 0x0000FFFF#32])

/-- The W1C write to `STATUS` completes: bit 1 clears `DONE`, bit 2 clears `ERR` and `ERRCODE`, bit 3
clears `ABORTED`, every other bit is dropped, and `IRQ` falls where no enabled source remains
(40_register_access.md R111). -/
def Obligations.StatusWriteClearsWrittenOnes : Prop :=
  ∀ (s : State) (v : Word), ∃ t : State, exec (.wrStatus v) s = .next t ∧
    t = { s with
      done := s.done && !v.getLsbD 1
      err := s.err && !v.getLsbD 2
      errcode := if v.getLsbD 2 then 0#4 else s.errcode
      aborted := s.aborted && !v.getLsbD 3 } ∧
    irq t = ((s.done && !v.getLsbD 1 && s.ieDone) || (s.err && !v.getLsbD 2 && s.ieErr))

/-- A write to each read-only register completes, records BAD_ACCESS, code 6, where no error is
recorded yet, and changes no register (40_register_access.md R112). -/
def Obligations.ReadOnlyWritesRecordBadAccess : Prop :=
  ∀ (s : State) (v : Word),
    exec (.wrId v) s =
      .next { s with err := true, errcode := if s.err then s.errcode else 6#4 } ∧
    exec (.wrSampleCount v) s =
      .next { s with err := true, errcode := if s.err then s.errcode else 6#4 } ∧
    exec (.wrAcc v) s =
      .next { s with err := true, errcode := if s.err then s.errcode else 6#4 } ∧
    exec (.wrLfsr v) s =
      .next { s with err := true, errcode := if s.err then s.errcode else 6#4 } ∧
    exec (.wrPstate v) s =
      .next { s with err := true, errcode := if s.err then s.errcode else 6#4 } ∧
    decode (mkHop true 0x00#8 v) = .wrId v ∧ decode (mkHop true 0x24#8 v) = .wrSampleCount v ∧
    decode (mkHop true 0x28#8 v) = .wrAcc v ∧ decode (mkHop true 0x2C#8 v) = .wrLfsr v ∧
    decode (mkHop true 0x30#8 v) = .wrPstate v

/-- A misaligned or unmapped access completes: a read returns 0, a write writes nothing, and
BAD_ACCESS is recorded; every misaligned offset, and every aligned one from `0x34`, is such an access
(40_register_access.md R113, R114). -/
def Obligations.BadOffsetsRecordBadAccess : Prop :=
  ∀ (s : State) (off : Offset) (v : Word),
    exec (.badAccessMisaligned off .read) s =
      .next { s with reads := s.reads ++ [0#32], err := true,
                     errcode := if s.err then s.errcode else 6#4 } ∧
    exec (.badAccessMisaligned off (.write v)) s =
      .next { s with err := true, errcode := if s.err then s.errcode else 6#4 } ∧
    exec (.badAccessUnmapped off .read) s =
      .next { s with reads := s.reads ++ [0#32], err := true,
                     errcode := if s.err then s.errcode else 6#4 } ∧
    exec (.badAccessUnmapped off (.write v)) s =
      .next { s with err := true, errcode := if s.err then s.errcode else 6#4 } ∧
    (off.extractLsb' 0 2 ≠ 0#2 →
      decode (mkHop false off v) = .badAccessMisaligned off .read ∧
      decode (mkHop true off v) = .badAccessMisaligned off (.write v)) ∧
    (off.extractLsb' 0 2 = 0#2 → 0x34#8 ≤ off →
      decode (mkHop false off v) = .badAccessUnmapped off .read ∧
      decode (mkHop true off v) = .badAccessUnmapped off (.write v))

/-! ## Commands -/

/-- NOP completes and changes nothing, busy or idle (41_commands.md R122). -/
def Obligations.NopChangesNothing : Prop := ∀ s : State, exec .cmdNop s = .next s

/-- START completes: it records the first of START_WHILE_BUSY, INVALID_SAMP_PERIOD,
INVALID_SYM_PERIOD and INVALID_DEPTH that holds and changes nothing else, or else latches the
configuration and begins the run (41_commands.md R121). -/
def Obligations.StartLatchesOrRefuses : Prop :=
  ∀ s : State,
    (s.busy = true → exec .cmdStart s =
      .next { s with err := true, errcode := if s.err then s.errcode else 5#4 }) ∧
    (s.busy = false → s.sampPeriod = 0#32 → exec .cmdStart s =
      .next { s with err := true, errcode := if s.err then s.errcode else 1#4 }) ∧
    (s.busy = false → s.sampPeriod ≠ 0#32 → s.symPeriod = 0#32 → exec .cmdStart s =
      .next { s with err := true, errcode := if s.err then s.errcode else 2#4 }) ∧
    (s.busy = false → s.sampPeriod ≠ 0#32 → s.symPeriod ≠ 0#32 → s.depth = 0#32 →
      exec .cmdStart s =
        .next { s with err := true, errcode := if s.err then s.errcode else 3#4 }) ∧
    (s.busy = false → s.sampPeriod ≠ 0#32 → s.symPeriod ≠ 0#32 → s.depth ≠ 0#32 →
      exec .cmdStart s = .next
        { s with
          wSamp := s.sampPeriod, wSym := s.symPeriod, wDepth := s.depth, wAmpl := s.amplitude
          wPsel := s.psel, acc := s.symPeriod, lfsr := s.seed, idx := 0#5, lvl := false
          sampleCount := 0#32, done := false, aborted := false, busy := true })

/-- ABORT completes: while busy it stops the run between steps, keeps the engine's state and the
transfers emitted, none of which has `LAST = 1`, and sets `ABORTED`; while idle it changes nothing
(41_commands.md R123). That an engine action after the abort, not enabled then, answers the same state
is the model's reading (log 2). -/
def Obligations.AbortStopsTheRun : Prop :=
  ∀ s : State,
    (s.busy = true →
      exec .cmdAbort s = .next { s with busy := false, aborted := true } ∧
      exec .engineStep { s with busy := false, aborted := true } =
        .next { s with busy := false, aborted := true }) ∧
    (s.busy = true → Inv s →
      ∃ run : List Transfer, RunInOut { s with busy := false, aborted := true } run ∧
        run.length < s.wDepth.toNat ∧ ∀ x ∈ run, x.last = false) ∧
    (s.busy = false → exec .cmdAbort s = .next s)

/-- SOFT_RESET and the hardware reset complete in the same state: every element of the block at its
reset value, `OUT` unchanged, `IRQ` 0; a second reset changes nothing (10_state.md R44,
41_commands.md R124, 70_reset_and_hazards.md R181). The last two fields, the host's reads and the
schedule, are the model's and are kept (logs 1 and 5). -/
def Obligations.SoftResetIsTheReset : Prop :=
  ∀ s : State, ∃ t : State, exec .cmdSoftReset s = .next t ∧ exec .reset s = .next t ∧
    t = { psel := .prbs31, ieDone := false, ieErr := false, seed := 0x7FFFFFFF#31,
          symPeriod := 0#32, sampPeriod := 0#32, depth := 0#32, amplitude := 0#16,
          busy := false, done := false, err := false, aborted := false, errcode := 0#4,
          sampleCount := 0#32, acc := 0#32, lfsr := 0#31, idx := 0#5, lvl := false,
          wSym := 0#32, wSamp := 0#32, wDepth := 0#32, wAmpl := 0#16, wPsel := .prbs31,
          out := s.out, reads := s.reads, schedule := s.schedule } ∧
    regValue .id t = 0x42505331#32 ∧ irq t = false ∧ exec .reset t = .next t

/-- An illegal command word completes with ILLEGAL_CMD, code 4, recorded and nothing else changed,
whatever the word above 3 (41_commands.md R125). -/
def Obligations.IllegalCommandIsRecorded : Prop :=
  ∀ (s : State) (v : Word),
    exec (.cmdIllegal v) s =
      .next { s with err := true, errcode := if s.err then s.errcode else 4#4 } ∧
    (4 ≤ v.toNat → decode (mkHop true 0x1C#8 v) = .cmdIllegal v)

/-- START straight after reset records INVALID_SAMP_PERIOD, `STATUS` reads `0x00000104`, and nothing
else changes (70_reset_and_hazards.md R185). -/
def Obligations.StartAfterResetIsRefused : Prop :=
  ∃ t u : State, exec .cmdStart State.reset = .next t ∧
    t = { State.reset with err := true, errcode := 1#4 } ∧
    exec .rdStatus t = .next u ∧ u.reads = [0x00000104#32]

/-! ## Errors and the interrupt -/

/-- Where an error is recorded, every operation keeps the record, but for the W1C write of bit 2 and
the resets, which clear it (60_exceptions.md R162, R169). -/
def Obligations.FirstErrorIsKept : Prop :=
  ∀ (i : Instr) (s t : State), exec i s = .next t → s.err = true →
    (t.err = true ∧ t.errcode = s.errcode) ∨
    ((i = .cmdSoftReset ∨ i = .reset ∨ ∃ v : Word, i = .wrStatus v ∧ v.getLsbD 2 = true) ∧
      t.err = false ∧ t.errcode = 0#4)

/-- A new error has the code of its cause, and the operation that raises it changes nothing but the
record and the 0 a bad read returns (60_exceptions.md R160, R163). -/
def Obligations.NewErrorsHaveTheirCause : Prop :=
  ∀ (i : Instr) (s t : State), exec i s = .next t → s.err = false → t.err = true →
    t = { s with err := true, errcode := t.errcode, reads := t.reads } ∧
    ((i = .cmdStart ∧ s.busy = false ∧ s.sampPeriod = 0#32 ∧ t.errcode = 1#4 ∧
        t.reads = s.reads) ∨
     (i = .cmdStart ∧ s.busy = false ∧ s.sampPeriod ≠ 0#32 ∧ s.symPeriod = 0#32 ∧
        t.errcode = 2#4 ∧ t.reads = s.reads) ∨
     (i = .cmdStart ∧ s.busy = false ∧ s.sampPeriod ≠ 0#32 ∧ s.symPeriod ≠ 0#32 ∧
        s.depth = 0#32 ∧ t.errcode = 3#4 ∧ t.reads = s.reads) ∨
     ((∃ v, i = .cmdIllegal v) ∧ t.errcode = 4#4 ∧ t.reads = s.reads) ∨
     (i = .cmdStart ∧ s.busy = true ∧ t.errcode = 5#4 ∧ t.reads = s.reads) ∨
     ((∃ v, i = .wrId v ∨ i = .wrSampleCount v ∨ i = .wrAcc v ∨ i = .wrLfsr v ∨ i = .wrPstate v ∨
          (∃ off, i = .badAccessMisaligned off (.write v)) ∨
          (∃ off, i = .badAccessUnmapped off (.write v))) ∧
        t.errcode = 6#4 ∧ t.reads = s.reads) ∨
     ((∃ off, i = .badAccessMisaligned off .read ∨ i = .badAccessUnmapped off .read) ∧
        t.errcode = 6#4 ∧ t.reads = s.reads ++ [0#32]))

/-- `IRQ` is the function of the `STATUS` and `CTRL` words that 10_state.md R41 gives, and 0 after
reset. -/
def Obligations.IrqIsTheEnabledPendingLevel : Prop :=
  (∀ s : State, irq s =
    (((regValue .status s).getLsbD 1 && (regValue .ctrl s).getLsbD 1) ||
     ((regValue .status s).getLsbD 2 && (regValue .ctrl s).getLsbD 2))) ∧
  irq State.reset = false

/-! ## Pattern sources -/

/-- ADV_PRBS31 completes: the register shifts left by one, bits 30 and 27 of the old value give the
injected bit 0 and the level, nothing else changes (42_pattern_sources.md R131). -/
def Obligations.PrbsAdvanceShiftsAndInjects : Prop :=
  ∀ s : State, ∃ t : State, exec .advPrbs31 s = .next t ∧
    t = { s with lfsr := t.lfsr, lvl := s.lfsr.getLsbD 30 ^^ s.lfsr.getLsbD 27 } ∧
    t.lfsr.getLsbD 0 = (s.lfsr.getLsbD 30 ^^ s.lfsr.getLsbD 27) ∧
    ∀ i < 30, t.lfsr.getLsbD (i + 1) = s.lfsr.getLsbD i

/-- ADV_FIXED20 completes: the index goes up by one modulo 20, the level is the literal's bit at the
new index, nothing else changes; and the literal is the word `0xA257C` (42_pattern_sources.md R130,
R132). -/
def Obligations.FixedAdvanceReadsTheLiteral : Prop :=
  (∀ s : State, ∃ t : State, exec .advFixed20 s = .next t ∧
    t = { s with idx := t.idx, lvl := t.lvl } ∧
    t.idx.toNat = (s.idx.toNat + 1) % 20 ∧
    t.lvl = fixed20Literal.getD t.idx.toNat false) ∧
  (∀ j < 20, fixed20Literal.getD j false = (0xA257C#20).getLsbD j)

/-- The register's old state is recovered from the new one, 0 is its own image and nothing else
reaches it, and a PRBS31 run whose register and level are 0 stays there and emits the low level
(42_pattern_sources.md R136). -/
def Obligations.PrbsAdvanceIsInvertible : Prop :=
  (∀ s t : State, exec .advPrbs31 s = .next t →
    s.lfsr = BitVec.ofBool (t.lfsr.getLsbD 0 ^^ t.lfsr.getLsbD 28) ++ t.lfsr.extractLsb' 1 30 ∧
    (t.lfsr = 0#31 ↔ s.lfsr = 0#31) ∧ (s.lfsr = 0#31 → t.lvl = false)) ∧
  (∀ s : State, s.busy = true → s.wSym ≠ 0#32 → s.wPsel = .prbs31 → s.lfsr = 0#31 →
    s.lvl = false →
    ∃ t : State, exec .engineStep s = .next t ∧ t.lfsr = 0#31 ∧ t.lvl = false ∧
      t.err = s.err ∧ t.errcode = s.errcode ∧
      ∃ last : Bool, t.out = s.out ++ [⟨BitVec.ofInt 32 (-rha s.wAmpl.toNat 2), last⟩])

/-- From every non-zero seed the injected bits, and the register's states, repeat after exactly
`2^31 - 1` advances and never earlier (42_pattern_sources.md R135). -/
def Obligations.PrbsPeriodIsExact : Prop :=
  ∀ seed : Lfsr, seed ≠ 0#31 →
    (∀ j : Nat, prbsInject (prbsNext^[j + (2 ^ 31 - 1)] seed) = prbsInject (prbsNext^[j] seed)) ∧
    (∀ q : Nat, 0 < q →
      (∀ j : Nat, prbsInject (prbsNext^[j + q] seed) = prbsInject (prbsNext^[j] seed)) →
      2 ^ 31 - 1 ≤ q) ∧
    prbsNext^[2 ^ 31 - 1] seed = seed ∧
    (∀ q : Nat, 0 < q → q < 2 ^ 31 - 1 → prbsNext^[q] seed ≠ seed)

/-- From the pattern state of a START, the level after `j` advances is that of symbol `j`: the
literal at `j mod 20`, or the `j`-th injected bit with 0 before the first; the source that the run
does not use keeps its state; and the two seeds of 42_pattern_sources.md R138 give the symbols listed
there (R134, R137, R138). -/
def Obligations.AdvancesFollowTheSymbolLaws : Prop :=
  (∀ (s : State) (j : Nat), s.idx = 0#5 → s.lvl = false →
    (advance^[j] s).lvl = symbolLevel s.wPsel s.lfsr j ∧
    (s.wPsel = .fixed20 →
      (advance^[j] s).idx.toNat = j % 20 ∧ (advance^[j] s).lfsr = s.lfsr) ∧
    (s.wPsel = .prbs31 → (advance^[j] s).idx = 0#5)) ∧
  (List.range 8).map (symbolLevel .prbs31 0x40000000#31) =
    [false, true, false, false, false, false, false, false] ∧
  (∀ j, 1 ≤ j → j ≤ 28 → symbolLevel .prbs31 0x7FFFFFFF#31 j = false) ∧
  (∀ j, 29 ≤ j → j ≤ 31 → symbolLevel .prbs31 0x7FFFFFFF#31 j = true)

/-! ## Arithmetic of a sample -/

/-- `RHA(p, q)` is the integer nearest to `p/q`, ties away from zero, by the formula of 00_scope.md
R9; it is odd in `p` and 0 at 0. -/
def Obligations.RhaRoundsHalfAwayFromZero : Prop :=
  ∀ (p : Int) (q : Nat), 0 < q →
    rha p q = (if 0 ≤ p then 1 else -1) * ((2 * |p| + q) / (2 * q)) ∧
    2 * |p - q * rha p q| ≤ q ∧
    (2 * |p - q * rha p q| = q → |p| < |q * rha p q|) ∧
    rha 0 q = 0 ∧ rha (-p) q = -rha p q

/-- The levels are `±A/2` for even `A` and `±(A+1)/2` for odd `A`, symmetric, of size at most 32768
(43_sample_synthesis.md R147). -/
def Obligations.LevelCodesAreSymmetric : Prop :=
  ∀ a : BitVec 16,
    levelCode a.toNat true = rha a.toNat 2 ∧ levelCode a.toNat false = -rha a.toNat 2 ∧
    (a.toNat % 2 = 0 → 2 * levelCode a.toNat true = a.toNat) ∧
    (a.toNat % 2 = 1 → 2 * levelCode a.toNat true = a.toNat + 1) ∧
    (∀ lvl : Bool, |levelCode a.toNat lvl| ≤ 32768)

/-- An edge sample is the exact interpolated rational `V(prev) + (V(new) - V(prev)) * (1 - pre/S)`
rounded half away from zero; at `pre = 0` it is the new level, at `pre = S/2` it is 0, and the
falling edge is the negation of the rising one (43_sample_synthesis.md R148). -/
def Obligations.EdgeSamplesInterpolate : Prop :=
  ∀ (a samp pre : Nat) (prev : Bool), 0 < samp →
    let V : Bool → ℚ := fun b => if b then (a : ℚ) / 2 else -((a : ℚ) / 2)
    let v : ℚ := V prev + (V (!prev) - V prev) * (1 - (pre : ℚ) / samp)
    let y : ℚ := (edgeCode a samp pre prev : ℤ)
    |y - v| ≤ 1 / 2 ∧ (|y - v| = 1 / 2 → |v| < |y|) ∧
    (pre = 0 → edgeCode a samp pre prev = levelCode a (!prev)) ∧
    (2 * pre = samp → edgeCode a samp pre prev = 0) ∧
    edgeCode a samp pre true = -edgeCode a samp pre false

/-- The advances of a step are the least `k` with `pre - S + k*T >= 0`: 0 where the decremented
accumulator is not below zero, else `ceil((S - pre) / T)` (43_sample_synthesis.md R142, R143). -/
def Obligations.AdvanceCountIsLeast : Prop :=
  ∀ s : State, s.wSym ≠ 0#32 →
    (0 : Int) ≤ s.acc.toNat - s.wSamp.toNat + stepAdvances s * s.wSym.toNat ∧
    (∀ j < stepAdvances s, (s.acc.toNat : Int) - s.wSamp.toNat + j * s.wSym.toNat < 0) ∧
    (s.wSamp.toNat ≤ s.acc.toNat → stepAdvances s = 0) ∧
    (s.acc.toNat < s.wSamp.toNat →
      (stepAdvances s : Int) = ⌈((s.wSamp.toNat : ℚ) - s.acc.toNat) / s.wSym.toNat⌉)

/-! ## The engine step -/

/-- While busy, with a symbol period that lets the loop end, ENGINE_STEP completes in exactly the
state that the pseudocode of 43_sample_synthesis.md R140 ends with, its loop run turn by turn. -/
def Obligations.EngineStepIsTheLoop : Prop :=
  ∀ (s : State) (fuel : Nat), s.busy = true →
    s.wSym ≠ 0#32 ∨ s.wSamp.toNat ≤ s.acc.toNat → s.wSamp.toNat ≤ fuel →
    ∃ t : State, engineStepByTurns fuel s = some t ∧ exec .engineStep s = .next t

/-- While not busy the engine step is not enabled: an engine action changes nothing (the model's
reading of 43_sample_synthesis.md R140, log 2). -/
def Obligations.IdleEngineChangesNothing : Prop :=
  ∀ s : State, s.busy = false → exec .engineStep s = .next s

/-- An engine step changes only the accumulator, the pattern state, the counter, `BUSY`, `DONE` and
`OUT`: it raises no error and touches no configuration register, working copy or flag besides
(43_sample_synthesis.md R140, 60_exceptions.md R165). -/
def Obligations.EngineStepFrame : Prop :=
  ∀ s t : State, exec .engineStep s = .next t →
    t = { s with acc := t.acc, lfsr := t.lfsr, idx := t.idx, lvl := t.lvl, out := t.out,
                 sampleCount := t.sampleCount, busy := t.busy, done := t.done } ∧
    (s.wPsel = .prbs31 → t.idx = s.idx) ∧ (s.wPsel = .fixed20 → t.lfsr = s.lfsr)

/-- Every engine step of a run appends one transfer whose sample lies between the two level codes and
in `[-32768, 32768]`, in the 32-bit form that sign-extends its low 18 bits (43_sample_synthesis.md
R156, 30_encoding.md R73). -/
def Obligations.SamplesStayBetweenTheLevels : Prop :=
  ∀ s t : State, exec .engineStep s = .next t → s.busy = true →
    ∃ y : Int, t.out =
        s.out ++ [⟨BitVec.ofInt 32 y, s.sampleCount.toNat + 1 == s.wDepth.toNat⟩] ∧
      levelCode s.wAmpl.toNat false ≤ y ∧ y ≤ levelCode s.wAmpl.toNat true ∧
      -32768 ≤ y ∧ y ≤ 32768 ∧ (BitVec.ofInt 32 y).toInt = y ∧
      BitVec.ofInt 32 y = (BitVec.ofInt 18 y).signExtend 32

/-- The accumulator laws of 43_sample_synthesis.md R152 for one step of a run. -/
def Obligations.AccumulatorStaysInBounds : Prop :=
  ∀ s t : State, Inv s → s.busy = true → exec .engineStep s = .next t →
    s.acc.toNat ≤ s.wSym.toNat ∧ t.acc.toNat < s.wSym.toNat ∧
    (t.acc.toNat : Int) =
      (s.acc.toNat : Int) - s.wSamp.toNat + stepAdvances s * s.wSym.toNat ∧
    (1 ≤ stepAdvances s → s.acc.toNat < s.wSamp.toNat) ∧
    (t.lvl ≠ s.lvl → 0 < 1 - (s.acc.toNat : ℚ) / s.wSamp.toNat ∧
      1 - (s.acc.toNat : ℚ) / s.wSamp.toNat ≤ 1) ∧
    (stepAdvances s : Int) ≤ ⌈(s.wSamp.toNat : ℚ) / s.wSym.toNat⌉ ∧
    (s.wSamp.toNat < s.wSym.toNat → stepAdvances s ≤ 1) ∧
    -(2 ^ 32 - 1) ≤ (s.acc.toNat : Int) - s.wSamp.toNat ∧
    (s.acc.toNat : Int) - s.wSamp.toNat ≤ 2 ^ 32 - 1

/-- Scaling both periods and the accumulator by the same factor leaves the sample, the advances and
the pattern state of a step unchanged and scales the accumulator after it (43_sample_synthesis.md
R153). -/
def Obligations.OnlyThePeriodRatioMatters : Prop :=
  ∀ (s : State) (c : Nat), 0 < c → s.busy = true → s.wSym ≠ 0#32 →
    c * s.wSym.toNat < 2 ^ 32 → c * s.wSamp.toNat < 2 ^ 32 → c * s.acc.toNat < 2 ^ 32 →
    let s' : State := { s with wSym := BitVec.ofNat 32 (c * s.wSym.toNat),
                               wSamp := BitVec.ofNat 32 (c * s.wSamp.toNat),
                               acc := BitVec.ofNat 32 (c * s.acc.toNat) }
    ∃ t t' : State, exec .engineStep s = .next t ∧ exec .engineStep s' = .next t' ∧
      stepAdvances s' = stepAdvances s ∧ t'.out = t.out ∧ t'.lvl = t.lvl ∧ t'.idx = t.idx ∧
      t'.lfsr = t.lfsr ∧ t'.acc.toNat = c * t.acc.toNat

/-- The advance that starts symbol `j` is made in step `floor(j*T/S)` and in no other, in a run whose
accumulator follows R155 (43_sample_synthesis.md R155). -/
def Obligations.EveryEdgeFallsInItsSample : Prop :=
  ∀ (s : State) (j : Nat), Inv s → PhaseOk s → s.busy = true → 1 ≤ j →
    (advancesIn s.sampleCount.toNat s.wSamp.toNat s.wSym.toNat < j ∧
      j ≤ advancesIn s.sampleCount.toNat s.wSamp.toNat s.wSym.toNat + stepAdvances s ↔
     s.sampleCount.toNat = j * s.wSym.toNat / s.wSamp.toNat)

/-! ## What each operation may change -/

/-- Only the engine step, the advances, START and the resets change the pattern state, the
accumulator and the counter; only START and the resets change the working copies: no host write
reaches them (42_pattern_sources.md R139, 10_state.md R36). -/
def Obligations.HostWritesNeverReachTheEngine : Prop :=
  ∀ (i : Instr) (s t : State), exec i s = .next t →
    i ≠ .cmdStart → i ≠ .cmdSoftReset → i ≠ .reset →
    (t.wSym = s.wSym ∧ t.wSamp = s.wSamp ∧ t.wDepth = s.wDepth ∧ t.wAmpl = s.wAmpl ∧
      t.wPsel = s.wPsel) ∧
    (i ≠ .engineStep → t.acc = s.acc ∧ t.sampleCount = s.sampleCount) ∧
    (i ≠ .engineStep → i ≠ .advPrbs31 → i ≠ .advFixed20 →
      t.lfsr = s.lfsr ∧ t.idx = s.idx ∧ t.lvl = s.lvl)

/-- What the configuration registers hold during a run changes nothing an engine step does
(70_reset_and_hazards.md R186). -/
def Obligations.RunsIgnoreTheConfigurationRegisters : Prop :=
  ∀ (s t : State) (p : Pattern) (d e : Bool) (seed : Lfsr) (sym samp depth : Word)
    (ampl : BitVec 16), exec .engineStep s = .next t →
    exec .engineStep
        { s with psel := p, ieDone := d, ieErr := e, seed := seed, symPeriod := sym,
                 sampPeriod := samp, depth := depth, amplitude := ampl } =
      .next { t with psel := p, ieDone := d, ieErr := e, seed := seed, symPeriod := sym,
                     sampPeriod := samp, depth := depth, amplitude := ampl }

/-- `OUT` only grows, by exactly one transfer in an engine step of a run, with `LAST` on the final
sample, and by nothing in any other operation, the resets among them (10_state.md R40,
43_sample_synthesis.md R149). -/
def Obligations.OutGrowsOnlyByEngineSteps : Prop :=
  ∀ (i : Instr) (s t : State), exec i s = .next t →
    (i = .engineStep → s.busy = true →
      ∃ x : Transfer, t.out = s.out ++ [x] ∧
        x.last = (s.sampleCount.toNat + 1 == s.wDepth.toNat)) ∧
    (i ≠ .engineStep ∨ s.busy = false → t.out = s.out)

/-- The sample counter is changed only by an engine step of a run, which adds 1 without wrapping, and
by START and the resets, which set it to 0 (60_exceptions.md R172, 43_sample_synthesis.md R150). -/
def Obligations.SampleCounterCountsSteps : Prop :=
  ∀ (i : Instr) (s t : State), Inv s → exec i s = .next t →
    (i = .engineStep → s.busy = true → t.sampleCount.toNat = s.sampleCount.toNat + 1) ∧
    (t.sampleCount ≠ s.sampleCount →
      (i = .engineStep ∧ s.busy = true) ∨
      ((i = .cmdStart ∨ i = .cmdSoftReset ∨ i = .reset) ∧ t.sampleCount = 0#32))

/-- A run begins only by an accepted START and ends in exactly one of three ways, with the status,
counter, transfer and interrupt that 70_reset_and_hazards.md R194 lists. -/
def Obligations.RunsEndInThreeWays : Prop :=
  ∀ (i : Instr) (s t : State), Inv s → exec i s = .next t →
    (s.busy = false → t.busy = true →
      i = .cmdStart ∧ s.sampPeriod ≠ 0#32 ∧ s.symPeriod ≠ 0#32 ∧ s.depth ≠ 0#32) ∧
    (s.busy = true → t.busy = false →
      (i = .engineStep ∧ t.done = true ∧ t.sampleCount = s.wDepth ∧
        (∃ x : Transfer, t.out = s.out ++ [x] ∧ x.last = true) ∧
        irq t = (s.ieDone || (s.err && s.ieErr))) ∨
      (i = .cmdAbort ∧ t.aborted = true ∧ t.done = false ∧
        t.sampleCount.toNat < s.wDepth.toNat ∧ t.out = s.out ∧
        (∃ run : List Transfer, RunInOut t run ∧ ∀ x ∈ run, x.last = false) ∧
        irq t = (s.err && s.ieErr)) ∨
      ((i = .cmdSoftReset ∨ i = .reset) ∧ regValue .status t = 0#32 ∧ t.sampleCount = 0#32 ∧
        t.out = s.out ∧ (∃ run : List Transfer, RunInOut s run ∧ ∀ x ∈ run, x.last = false) ∧
        irq t = false))

/-- Every operation completes in every state, but for an engine step whose advance loop has no end, a
state no run reaches (60_exceptions.md R166; the stop is the model's, log 8). -/
def Obligations.OnlyADivergingLoopStops : Prop :=
  ∀ (i : Instr) (s : State),
    (∃ t : State, exec i s = .next t) ∨
    (i = .engineStep ∧ s.busy = true ∧ s.wSym = 0#32 ∧ s.acc.toNat < s.wSamp.toNat ∧
      exec i s = .fault .advanceLoopDiverges)

/-! ## Interleavings -/

/-- ABORT racing the last engine step: before it, the run is aborted and the step does not happen;
after it, the run is complete and ABORT does nothing (70_reset_and_hazards.md R191). -/
def Obligations.AbortRacesTheLastStep : Prop :=
  ∀ (s : State) (rest : List Action), Inv s → s.busy = true →
    s.sampleCount.toNat + 1 = s.wDepth.toNat →
    (s.schedule = .host abortHop :: .engine :: rest →
      ∃ t : State, runFor 2 s = .next t ∧ t.busy = false ∧ t.aborted = true ∧ t.done = false ∧
        t.sampleCount = s.sampleCount ∧ t.sampleCount.toNat < t.wDepth.toNat ∧ t.out = s.out) ∧
    (s.schedule = .engine :: .host abortHop :: rest →
      ∃ t : State, runFor 2 s = .next t ∧ t.busy = false ∧ t.aborted = false ∧ t.done = true ∧
        t.sampleCount = t.wDepth ∧ ∃ x : Transfer, t.out = s.out ++ [x] ∧ x.last = true)

/-- The acknowledge that coincides with the last step, the host access first and then the engine
step, leaves `DONE` at 1 (20_memory.md R59). -/
def Obligations.CompletionWinsOverAcknowledge : Prop :=
  ∀ (s : State) (rest : List Action), Inv s → s.busy = true →
    s.sampleCount.toNat + 1 = s.wDepth.toNat →
    s.schedule = .host ackDoneHop :: .engine :: rest →
    ∃ t : State, runFor 2 s = .next t ∧ t.done = true ∧ t.busy = false ∧ t.schedule = rest

/-- Where a read of `STATUS` shows `DONE = 1`, all `N` transfers of that run are in `OUT` and the last
of them has `LAST = 1`; where a read of `SAMPLE_COUNT` returns `c`, exactly `c` transfers of the
current or most recent run are (20_memory.md R61). -/
def Obligations.CompletionIsVisible : Prop :=
  ∀ (s t : State) (v : Word), Inv s → t.reads = s.reads ++ [v] →
    (exec .rdStatus s = .next t → v.getLsbD 1 = true →
      ∃ run : List Transfer, RunInOut s run ∧ run.length = s.wDepth.toNat ∧
        ∃ x : Transfer, run.getLast? = some x ∧ x.last = true) ∧
    (exec .rdSampleCount s = .next t →
      ∃ run : List Transfer, RunInOut s run ∧ run.length = v.toNat)

/-- Between two states of one interleaving with no START and no reset between them, equal values of
`SAMPLE_COUNT` mean that no engine step fell between: the engine's state is the same
(70_reset_and_hazards.md R188). -/
def Obligations.EqualCountsMeanNoStep : Prop :=
  ∀ (s t : State) (as rest : List Action), Inv s → s.schedule = as ++ rest →
    (∀ a ∈ as, actionInstr a ≠ .cmdStart ∧ actionInstr a ≠ .cmdSoftReset ∧
      actionInstr a ≠ .reset) →
    runFor as.length s = .next t → t.sampleCount = s.sampleCount →
    t.acc = s.acc ∧ t.lfsr = s.lfsr ∧ t.idx = s.idx ∧ t.lvl = s.lvl ∧ t.out = s.out

/-! ## Invariants -/

/-- The invariant holds at reset, and so does the phase law. -/
def Obligations.ResetIsSafe : Prop := Inv State.reset ∧ PhaseOk State.reset

/-- Every step keeps the invariant: the error record, the flags, the index, the working copies, the
counter, the accumulator and the sample range (10_state.md R32, R33, R34, R37, R40). -/
def Obligations.StepKeepsInv : Prop := ∀ s t : State, Inv s → step s = .next t → Inv t

/-- Every step keeps the phase law: the accumulator stays exactly `(K(n) + 1)*T - n*S`, with no
drift, and a FIXED20 run's level stays the literal's at `K(n) mod 20` (43_sample_synthesis.md
R155). -/
def Obligations.StepKeepsPhase : Prop :=
  ∀ s t : State, Inv s → PhaseOk s → step s = .next t → PhaseOk t

/-- No step of a state that meets the invariant stops: it answers a next state. -/
def Obligations.SafeStatesNeverStop : Prop := ∀ s : State, Inv s → ∃ t : State, step s = .next t

/-! ## Whole runs -/

/-- The waveform of a run under every interleaving: after an accepted START, with any host accesses
among the engine steps but START, ABORT and SOFT_RESET, the transfers emitted are exactly the ideal
waveform of the configuration latched, as many as engine steps were taken and at most `N`; the run is
over exactly when `N` were (43_sample_synthesis.md R151, R155, 70_reset_and_hazards.md R190). -/
def Obligations.EveryRunEmitsTheIdealWaveform : Prop :=
  ∀ (s : State) (as rest : List Action), s.busy = false → Startable (configOf s) →
    (∀ a ∈ as, leavesRunAlone a = true) → s.schedule = .host startHop :: (as ++ rest) →
    ∃ t : State, runFor (as.length + 1) s = .next t ∧ t.schedule = rest ∧
      t.out = s.out ++
        (List.range (min (engineActions as) s.depth.toNat)).map (idealTransfer (configOf s)) ∧
      t.sampleCount.toNat = min (engineActions as) s.depth.toNat ∧
      t.busy = decide (engineActions as < s.depth.toNat) ∧
      t.lvl = symbolLevel s.psel s.seed
        (advancesIn (min (engineActions as) s.depth.toNat) s.sampPeriod.toNat s.symPeriod.toNat) ∧
      (t.acc.toNat : Int) =
        idealAcc (min (engineActions as) s.depth.toNat) s.sampPeriod.toNat s.symPeriod.toNat

/-- A run of exactly `N` engine steps emits exactly `N` transfers, `LAST` on the last only, and
leaves `BUSY = 0`, `DONE = 1` and `SAMPLE_COUNT = N` (70_reset_and_hazards.md R190,
43_sample_synthesis.md R151). -/
def Obligations.CompleteRunEmitsDepthSamples : Prop :=
  ∀ (s : State) (rest : List Action), s.busy = false → Startable (configOf s) →
    s.schedule = .host startHop :: (List.replicate s.depth.toNat .engine ++ rest) →
    ∃ t : State, runFor (s.depth.toNat + 1) s = .next t ∧ t.schedule = rest ∧
      t.busy = false ∧ t.done = true ∧ t.aborted = false ∧ t.sampleCount = s.depth ∧
      t.err = s.err ∧ t.errcode = s.errcode ∧
      ∃ ys : List Transfer, t.out = s.out ++ ys ∧ ys.length = s.depth.toNat ∧
        ∀ (n : Nat) (h : n < ys.length), ys[n].last = (n + 1 == s.depth.toNat)

/-- Two runs with the same configuration at START and the same number of engine steps emit the same
transfers, whatever the earlier history and whatever the host does meanwhile short of START, ABORT
and SOFT_RESET (70_reset_and_hazards.md R195). -/
def Obligations.RunsAreDeterministic : Prop :=
  ∀ (s s' : State) (as as' rest rest' : List Action),
    s.busy = false → s'.busy = false → configOf s = configOf s' → Startable (configOf s) →
    (∀ a ∈ as, leavesRunAlone a = true) → (∀ a ∈ as', leavesRunAlone a = true) →
    engineActions as = engineActions as' →
    s.schedule = .host startHop :: (as ++ rest) →
    s'.schedule = .host startHop :: (as' ++ rest') →
    ∃ (t t' : State) (ys : List Transfer),
      runFor (as.length + 1) s = .next t ∧ runFor (as'.length + 1) s' = .next t' ∧
      t.out = s.out ++ ys ∧ t'.out = s'.out ++ ys
end

