-- ==== Sys2Proof/Laws/Encoding.lean ====
section
/-! SUPPORT. The fields of a host-operation word (30_encoding.md R70). -/

namespace Sys2Proof

theorem mkHop_getLsbD (wr : Bool) (off : Offset) (d : Word) (i : Nat) :
    (mkHop wr off d).getLsbD i =
      if i < 32 then d.getLsbD i else if i < 40 then off.getLsbD (i - 32) else (i = 40 && wr) := by
  simp only [mkHop, BitVec.getLsbD_append, BitVec.getLsbD_ofBool]
  by_cases h1 : i < 32
  · simp [h1]
  · by_cases h2 : i < 40
    · have : i - 32 < 8 := by omega
      simp [h1, h2, this]
    · have h3 : ¬ i - 32 < 8 := by omega
      have : i - 32 - 8 = 0 ↔ i = 40 := by omega
      simp [h1, h2, h3, this]
theorem hopWr_mkHop (wr : Bool) (off : Offset) (d : Word) : hopWr (mkHop wr off d) = wr := by
  simp only [hopWr, mkHop_getLsbD]; simp
theorem hopOff_mkHop (wr : Bool) (off : Offset) (d : Word) : hopOff (mkHop wr off d) = off := by
  apply BitVec.eq_of_getLsbD_eq
  intro i hi
  have h : ¬ (32 + i < 32) := by omega
  have h' : (32 + i < 40) := by omega
  simp only [hopOff, BitVec.getLsbD_extractLsb', mkHop_getLsbD, hi, h, h', if_true, if_false,
    decide_true, Bool.true_and, Nat.add_sub_cancel_left]
theorem hopData_mkHop (wr : Bool) (off : Offset) (d : Word) : hopData (mkHop wr off d) = d := by
  apply BitVec.eq_of_getLsbD_eq
  intro i hi
  simp only [hopData, BitVec.getLsbD_extractLsb', mkHop_getLsbD, hi, if_true, 
    decide_true, Bool.true_and, Nat.zero_add]
theorem mkHop_fields (h : Hop) : mkHop (hopWr h) (hopOff h) (hopData h) = h := by
  apply BitVec.eq_of_getLsbD_eq
  intro i hi
  simp only [mkHop_getLsbD, hopWr, hopOff, hopData, BitVec.getLsbD_extractLsb']
  split
  · simp_all
  · split
    · have : i - 32 < 8 := by omega
      have e : 32 + (i - 32) = i := by omega
      simp [this, e]
    · have : i = 40 := by omega
      subst this; simp
theorem mkHop_and_rowMask (wr : Bool) (off : Offset) (d : Word) :
    mkHop wr off d &&& 0x1FF00000000#41 = mkHop wr off 0#32 := by
  apply BitVec.eq_of_getLsbD_eq
  intro i hi
  have hm : (0x1FF00000000#41).getLsbD i = decide (32 ≤ i) := by
    revert i; decide
  simp only [BitVec.getLsbD_and, hm, mkHop_getLsbD]
  by_cases h1 : i < 32
  · simp [h1]
  · have : 32 ≤ i := by omega
    simp [h1, this]

/-- The access of an access's own word is that access. -/
theorem hopAccess_accessHop (off : Offset) (acc : Access) : hopAccess (accessHop off acc) = acc := by
  cases acc <;> simp [hopAccess, accessHop, hopWr_mkHop, hopData_mkHop]

theorem hopOff_accessHop (off : Offset) (acc : Access) : hopOff (accessHop off acc) = off := by
  cases acc <;> simp [accessHop, hopOff_mkHop]

/-- The register map names every register at its own offset. -/
theorem regAt_regOffset (r : Reg) : regAt (regOffset r) = some r := by cases r <;> rfl

/-- The offset a register is found at is its own. -/
theorem regOffset_of_regAt (off : Offset) (r : Reg) (h : regAt off = some r) :
    regOffset r = off := by
  revert h; revert r; revert off; decide

theorem misaligned_regOffset (r : Reg) : misaligned (regOffset r) = false := by cases r <;> rfl

end Sys2Proof
end

