-- ==== Sys2Proof/Laws/State.lean ====
section
/-! SUPPORT. What each named update does to each field of the state: one lemma per field per update,
so that no later proof unfolds a record update. -/

namespace Sys2Proof.Machine

/-! ## `returnData` -/

@[simp] theorem returnData_psel (v : Word) (s : State) : (returnData v s).psel = s.psel := rfl
@[simp] theorem returnData_ieDone (v : Word) (s : State) : (returnData v s).ieDone = s.ieDone := rfl
@[simp] theorem returnData_ieErr (v : Word) (s : State) : (returnData v s).ieErr = s.ieErr := rfl
@[simp] theorem returnData_seed (v : Word) (s : State) : (returnData v s).seed = s.seed := rfl
@[simp] theorem returnData_symPeriod (v : Word) (s : State) :
    (returnData v s).symPeriod = s.symPeriod := rfl
@[simp] theorem returnData_sampPeriod (v : Word) (s : State) :
    (returnData v s).sampPeriod = s.sampPeriod := rfl
@[simp] theorem returnData_depth (v : Word) (s : State) : (returnData v s).depth = s.depth := rfl
@[simp] theorem returnData_amplitude (v : Word) (s : State) :
    (returnData v s).amplitude = s.amplitude := rfl
@[simp] theorem returnData_busy (v : Word) (s : State) : (returnData v s).busy = s.busy := rfl
@[simp] theorem returnData_done (v : Word) (s : State) : (returnData v s).done = s.done := rfl
@[simp] theorem returnData_err (v : Word) (s : State) : (returnData v s).err = s.err := rfl
@[simp] theorem returnData_aborted (v : Word) (s : State) :
    (returnData v s).aborted = s.aborted := rfl
@[simp] theorem returnData_errcode (v : Word) (s : State) :
    (returnData v s).errcode = s.errcode := rfl
@[simp] theorem returnData_sampleCount (v : Word) (s : State) :
    (returnData v s).sampleCount = s.sampleCount := rfl
@[simp] theorem returnData_acc (v : Word) (s : State) : (returnData v s).acc = s.acc := rfl
@[simp] theorem returnData_lfsr (v : Word) (s : State) : (returnData v s).lfsr = s.lfsr := rfl
@[simp] theorem returnData_idx (v : Word) (s : State) : (returnData v s).idx = s.idx := rfl
@[simp] theorem returnData_lvl (v : Word) (s : State) : (returnData v s).lvl = s.lvl := rfl
@[simp] theorem returnData_wSym (v : Word) (s : State) : (returnData v s).wSym = s.wSym := rfl
@[simp] theorem returnData_wSamp (v : Word) (s : State) : (returnData v s).wSamp = s.wSamp := rfl
@[simp] theorem returnData_wDepth (v : Word) (s : State) : (returnData v s).wDepth = s.wDepth := rfl
@[simp] theorem returnData_wAmpl (v : Word) (s : State) : (returnData v s).wAmpl = s.wAmpl := rfl
@[simp] theorem returnData_wPsel (v : Word) (s : State) : (returnData v s).wPsel = s.wPsel := rfl
@[simp] theorem returnData_out (v : Word) (s : State) : (returnData v s).out = s.out := rfl
@[simp] theorem returnData_reads (v : Word) (s : State) :
    (returnData v s).reads = s.reads ++ [v] := rfl
@[simp] theorem returnData_schedule (v : Word) (s : State) :
    (returnData v s).schedule = s.schedule := rfl

/-! ## `readReg` -/

@[simp] theorem readReg_psel (r : Reg) (s : State) : (readReg r s).psel = s.psel := rfl
@[simp] theorem readReg_ieDone (r : Reg) (s : State) : (readReg r s).ieDone = s.ieDone := rfl
@[simp] theorem readReg_ieErr (r : Reg) (s : State) : (readReg r s).ieErr = s.ieErr := rfl
@[simp] theorem readReg_seed (r : Reg) (s : State) : (readReg r s).seed = s.seed := rfl
@[simp] theorem readReg_symPeriod (r : Reg) (s : State) :
    (readReg r s).symPeriod = s.symPeriod := rfl
@[simp] theorem readReg_sampPeriod (r : Reg) (s : State) :
    (readReg r s).sampPeriod = s.sampPeriod := rfl
@[simp] theorem readReg_depth (r : Reg) (s : State) : (readReg r s).depth = s.depth := rfl
@[simp] theorem readReg_amplitude (r : Reg) (s : State) :
    (readReg r s).amplitude = s.amplitude := rfl
@[simp] theorem readReg_busy (r : Reg) (s : State) : (readReg r s).busy = s.busy := rfl
@[simp] theorem readReg_done (r : Reg) (s : State) : (readReg r s).done = s.done := rfl
@[simp] theorem readReg_err (r : Reg) (s : State) : (readReg r s).err = s.err := rfl
@[simp] theorem readReg_aborted (r : Reg) (s : State) : (readReg r s).aborted = s.aborted := rfl
@[simp] theorem readReg_errcode (r : Reg) (s : State) : (readReg r s).errcode = s.errcode := rfl
@[simp] theorem readReg_sampleCount (r : Reg) (s : State) :
    (readReg r s).sampleCount = s.sampleCount := rfl
@[simp] theorem readReg_acc (r : Reg) (s : State) : (readReg r s).acc = s.acc := rfl
@[simp] theorem readReg_lfsr (r : Reg) (s : State) : (readReg r s).lfsr = s.lfsr := rfl
@[simp] theorem readReg_idx (r : Reg) (s : State) : (readReg r s).idx = s.idx := rfl
@[simp] theorem readReg_lvl (r : Reg) (s : State) : (readReg r s).lvl = s.lvl := rfl
@[simp] theorem readReg_wSym (r : Reg) (s : State) : (readReg r s).wSym = s.wSym := rfl
@[simp] theorem readReg_wSamp (r : Reg) (s : State) : (readReg r s).wSamp = s.wSamp := rfl
@[simp] theorem readReg_wDepth (r : Reg) (s : State) : (readReg r s).wDepth = s.wDepth := rfl
@[simp] theorem readReg_wAmpl (r : Reg) (s : State) : (readReg r s).wAmpl = s.wAmpl := rfl
@[simp] theorem readReg_wPsel (r : Reg) (s : State) : (readReg r s).wPsel = s.wPsel := rfl
@[simp] theorem readReg_out (r : Reg) (s : State) : (readReg r s).out = s.out := rfl
@[simp] theorem readReg_reads (r : Reg) (s : State) :
    (readReg r s).reads = s.reads ++ [regValue r s] := rfl
@[simp] theorem readReg_schedule (r : Reg) (s : State) : (readReg r s).schedule = s.schedule := rfl

/-! ## `raiseErr` -/

@[simp] theorem raiseErr_psel (c : ErrCause) (s : State) : (raiseErr c s).psel = s.psel := rfl
@[simp] theorem raiseErr_ieDone (c : ErrCause) (s : State) : (raiseErr c s).ieDone = s.ieDone := rfl
@[simp] theorem raiseErr_ieErr (c : ErrCause) (s : State) : (raiseErr c s).ieErr = s.ieErr := rfl
@[simp] theorem raiseErr_seed (c : ErrCause) (s : State) : (raiseErr c s).seed = s.seed := rfl
@[simp] theorem raiseErr_symPeriod (c : ErrCause) (s : State) :
    (raiseErr c s).symPeriod = s.symPeriod := rfl
@[simp] theorem raiseErr_sampPeriod (c : ErrCause) (s : State) :
    (raiseErr c s).sampPeriod = s.sampPeriod := rfl
@[simp] theorem raiseErr_depth (c : ErrCause) (s : State) : (raiseErr c s).depth = s.depth := rfl
@[simp] theorem raiseErr_amplitude (c : ErrCause) (s : State) :
    (raiseErr c s).amplitude = s.amplitude := rfl
@[simp] theorem raiseErr_busy (c : ErrCause) (s : State) : (raiseErr c s).busy = s.busy := rfl
@[simp] theorem raiseErr_done (c : ErrCause) (s : State) : (raiseErr c s).done = s.done := rfl
@[simp] theorem raiseErr_err (c : ErrCause) (s : State) : (raiseErr c s).err = true := rfl
@[simp] theorem raiseErr_aborted (c : ErrCause) (s : State) :
    (raiseErr c s).aborted = s.aborted := rfl
@[simp] theorem raiseErr_errcode (c : ErrCause) (s : State) :
    (raiseErr c s).errcode = if s.err then s.errcode else errCode c := rfl
@[simp] theorem raiseErr_sampleCount (c : ErrCause) (s : State) :
    (raiseErr c s).sampleCount = s.sampleCount := rfl
@[simp] theorem raiseErr_acc (c : ErrCause) (s : State) : (raiseErr c s).acc = s.acc := rfl
@[simp] theorem raiseErr_lfsr (c : ErrCause) (s : State) : (raiseErr c s).lfsr = s.lfsr := rfl
@[simp] theorem raiseErr_idx (c : ErrCause) (s : State) : (raiseErr c s).idx = s.idx := rfl
@[simp] theorem raiseErr_lvl (c : ErrCause) (s : State) : (raiseErr c s).lvl = s.lvl := rfl
@[simp] theorem raiseErr_wSym (c : ErrCause) (s : State) : (raiseErr c s).wSym = s.wSym := rfl
@[simp] theorem raiseErr_wSamp (c : ErrCause) (s : State) : (raiseErr c s).wSamp = s.wSamp := rfl
@[simp] theorem raiseErr_wDepth (c : ErrCause) (s : State) : (raiseErr c s).wDepth = s.wDepth := rfl
@[simp] theorem raiseErr_wAmpl (c : ErrCause) (s : State) : (raiseErr c s).wAmpl = s.wAmpl := rfl
@[simp] theorem raiseErr_wPsel (c : ErrCause) (s : State) : (raiseErr c s).wPsel = s.wPsel := rfl
@[simp] theorem raiseErr_out (c : ErrCause) (s : State) : (raiseErr c s).out = s.out := rfl
@[simp] theorem raiseErr_reads (c : ErrCause) (s : State) : (raiseErr c s).reads = s.reads := rfl
@[simp] theorem raiseErr_schedule (c : ErrCause) (s : State) :
    (raiseErr c s).schedule = s.schedule := rfl

/-! ## `ackStatus` -/

@[simp] theorem ackStatus_psel (v : Word) (s : State) : (ackStatus v s).psel = s.psel := rfl
@[simp] theorem ackStatus_ieDone (v : Word) (s : State) : (ackStatus v s).ieDone = s.ieDone := rfl
@[simp] theorem ackStatus_ieErr (v : Word) (s : State) : (ackStatus v s).ieErr = s.ieErr := rfl
@[simp] theorem ackStatus_seed (v : Word) (s : State) : (ackStatus v s).seed = s.seed := rfl
@[simp] theorem ackStatus_symPeriod (v : Word) (s : State) :
    (ackStatus v s).symPeriod = s.symPeriod := rfl
@[simp] theorem ackStatus_sampPeriod (v : Word) (s : State) :
    (ackStatus v s).sampPeriod = s.sampPeriod := rfl
@[simp] theorem ackStatus_depth (v : Word) (s : State) : (ackStatus v s).depth = s.depth := rfl
@[simp] theorem ackStatus_amplitude (v : Word) (s : State) :
    (ackStatus v s).amplitude = s.amplitude := rfl
@[simp] theorem ackStatus_busy (v : Word) (s : State) : (ackStatus v s).busy = s.busy := rfl
@[simp] theorem ackStatus_done (v : Word) (s : State) :
    (ackStatus v s).done = if clearsDone v then false else s.done := rfl
@[simp] theorem ackStatus_err (v : Word) (s : State) :
    (ackStatus v s).err = if clearsErr v then false else s.err := rfl
@[simp] theorem ackStatus_aborted (v : Word) (s : State) :
    (ackStatus v s).aborted = if clearsAborted v then false else s.aborted := rfl
@[simp] theorem ackStatus_errcode (v : Word) (s : State) :
    (ackStatus v s).errcode = if clearsErr v then 0#4 else s.errcode := rfl
@[simp] theorem ackStatus_sampleCount (v : Word) (s : State) :
    (ackStatus v s).sampleCount = s.sampleCount := rfl
@[simp] theorem ackStatus_acc (v : Word) (s : State) : (ackStatus v s).acc = s.acc := rfl
@[simp] theorem ackStatus_lfsr (v : Word) (s : State) : (ackStatus v s).lfsr = s.lfsr := rfl
@[simp] theorem ackStatus_idx (v : Word) (s : State) : (ackStatus v s).idx = s.idx := rfl
@[simp] theorem ackStatus_lvl (v : Word) (s : State) : (ackStatus v s).lvl = s.lvl := rfl
@[simp] theorem ackStatus_wSym (v : Word) (s : State) : (ackStatus v s).wSym = s.wSym := rfl
@[simp] theorem ackStatus_wSamp (v : Word) (s : State) : (ackStatus v s).wSamp = s.wSamp := rfl
@[simp] theorem ackStatus_wDepth (v : Word) (s : State) : (ackStatus v s).wDepth = s.wDepth := rfl
@[simp] theorem ackStatus_wAmpl (v : Word) (s : State) : (ackStatus v s).wAmpl = s.wAmpl := rfl
@[simp] theorem ackStatus_wPsel (v : Word) (s : State) : (ackStatus v s).wPsel = s.wPsel := rfl
@[simp] theorem ackStatus_out (v : Word) (s : State) : (ackStatus v s).out = s.out := rfl
@[simp] theorem ackStatus_reads (v : Word) (s : State) : (ackStatus v s).reads = s.reads := rfl
@[simp] theorem ackStatus_schedule (v : Word) (s : State) :
    (ackStatus v s).schedule = s.schedule := rfl

/-! ## `beginRun` -/

@[simp] theorem beginRun_psel (s : State) : (beginRun s).psel = s.psel := rfl
@[simp] theorem beginRun_ieDone (s : State) : (beginRun s).ieDone = s.ieDone := rfl
@[simp] theorem beginRun_ieErr (s : State) : (beginRun s).ieErr = s.ieErr := rfl
@[simp] theorem beginRun_seed (s : State) : (beginRun s).seed = s.seed := rfl
@[simp] theorem beginRun_symPeriod (s : State) : (beginRun s).symPeriod = s.symPeriod := rfl
@[simp] theorem beginRun_sampPeriod (s : State) : (beginRun s).sampPeriod = s.sampPeriod := rfl
@[simp] theorem beginRun_depth (s : State) : (beginRun s).depth = s.depth := rfl
@[simp] theorem beginRun_amplitude (s : State) : (beginRun s).amplitude = s.amplitude := rfl
@[simp] theorem beginRun_busy (s : State) : (beginRun s).busy = true := rfl
@[simp] theorem beginRun_done (s : State) : (beginRun s).done = false := rfl
@[simp] theorem beginRun_err (s : State) : (beginRun s).err = s.err := rfl
@[simp] theorem beginRun_aborted (s : State) : (beginRun s).aborted = false := rfl
@[simp] theorem beginRun_errcode (s : State) : (beginRun s).errcode = s.errcode := rfl
@[simp] theorem beginRun_sampleCount (s : State) : (beginRun s).sampleCount = 0#32 := rfl
@[simp] theorem beginRun_acc (s : State) : (beginRun s).acc = s.symPeriod := rfl
@[simp] theorem beginRun_lfsr (s : State) : (beginRun s).lfsr = s.seed := rfl
@[simp] theorem beginRun_idx (s : State) : (beginRun s).idx = 0#5 := rfl
@[simp] theorem beginRun_lvl (s : State) : (beginRun s).lvl = false := rfl
@[simp] theorem beginRun_wSym (s : State) : (beginRun s).wSym = s.symPeriod := rfl
@[simp] theorem beginRun_wSamp (s : State) : (beginRun s).wSamp = s.sampPeriod := rfl
@[simp] theorem beginRun_wDepth (s : State) : (beginRun s).wDepth = s.depth := rfl
@[simp] theorem beginRun_wAmpl (s : State) : (beginRun s).wAmpl = s.amplitude := rfl
@[simp] theorem beginRun_wPsel (s : State) : (beginRun s).wPsel = s.psel := rfl
@[simp] theorem beginRun_out (s : State) : (beginRun s).out = s.out := rfl
@[simp] theorem beginRun_reads (s : State) : (beginRun s).reads = s.reads := rfl
@[simp] theorem beginRun_schedule (s : State) : (beginRun s).schedule = s.schedule := rfl

/-! ## `abortRun` -/

@[simp] theorem abortRun_psel (s : State) : (abortRun s).psel = s.psel := rfl
@[simp] theorem abortRun_ieDone (s : State) : (abortRun s).ieDone = s.ieDone := rfl
@[simp] theorem abortRun_ieErr (s : State) : (abortRun s).ieErr = s.ieErr := rfl
@[simp] theorem abortRun_seed (s : State) : (abortRun s).seed = s.seed := rfl
@[simp] theorem abortRun_symPeriod (s : State) : (abortRun s).symPeriod = s.symPeriod := rfl
@[simp] theorem abortRun_sampPeriod (s : State) : (abortRun s).sampPeriod = s.sampPeriod := rfl
@[simp] theorem abortRun_depth (s : State) : (abortRun s).depth = s.depth := rfl
@[simp] theorem abortRun_amplitude (s : State) : (abortRun s).amplitude = s.amplitude := rfl
@[simp] theorem abortRun_busy (s : State) : (abortRun s).busy = false := rfl
@[simp] theorem abortRun_done (s : State) : (abortRun s).done = s.done := rfl
@[simp] theorem abortRun_err (s : State) : (abortRun s).err = s.err := rfl
@[simp] theorem abortRun_aborted (s : State) : (abortRun s).aborted = true := rfl
@[simp] theorem abortRun_errcode (s : State) : (abortRun s).errcode = s.errcode := rfl
@[simp] theorem abortRun_sampleCount (s : State) : (abortRun s).sampleCount = s.sampleCount := rfl
@[simp] theorem abortRun_acc (s : State) : (abortRun s).acc = s.acc := rfl
@[simp] theorem abortRun_lfsr (s : State) : (abortRun s).lfsr = s.lfsr := rfl
@[simp] theorem abortRun_idx (s : State) : (abortRun s).idx = s.idx := rfl
@[simp] theorem abortRun_lvl (s : State) : (abortRun s).lvl = s.lvl := rfl
@[simp] theorem abortRun_wSym (s : State) : (abortRun s).wSym = s.wSym := rfl
@[simp] theorem abortRun_wSamp (s : State) : (abortRun s).wSamp = s.wSamp := rfl
@[simp] theorem abortRun_wDepth (s : State) : (abortRun s).wDepth = s.wDepth := rfl
@[simp] theorem abortRun_wAmpl (s : State) : (abortRun s).wAmpl = s.wAmpl := rfl
@[simp] theorem abortRun_wPsel (s : State) : (abortRun s).wPsel = s.wPsel := rfl
@[simp] theorem abortRun_out (s : State) : (abortRun s).out = s.out := rfl
@[simp] theorem abortRun_reads (s : State) : (abortRun s).reads = s.reads := rfl
@[simp] theorem abortRun_schedule (s : State) : (abortRun s).schedule = s.schedule := rfl

/-! ## `resetBlock` -/

@[simp] theorem resetBlock_psel (s : State) : (resetBlock s).psel = .prbs31 := rfl
@[simp] theorem resetBlock_ieDone (s : State) : (resetBlock s).ieDone = false := rfl
@[simp] theorem resetBlock_ieErr (s : State) : (resetBlock s).ieErr = false := rfl
@[simp] theorem resetBlock_seed (s : State) : (resetBlock s).seed = 0x7FFFFFFF#31 := rfl
@[simp] theorem resetBlock_symPeriod (s : State) : (resetBlock s).symPeriod = 0#32 := rfl
@[simp] theorem resetBlock_sampPeriod (s : State) : (resetBlock s).sampPeriod = 0#32 := rfl
@[simp] theorem resetBlock_depth (s : State) : (resetBlock s).depth = 0#32 := rfl
@[simp] theorem resetBlock_amplitude (s : State) : (resetBlock s).amplitude = 0#16 := rfl
@[simp] theorem resetBlock_busy (s : State) : (resetBlock s).busy = false := rfl
@[simp] theorem resetBlock_done (s : State) : (resetBlock s).done = false := rfl
@[simp] theorem resetBlock_err (s : State) : (resetBlock s).err = false := rfl
@[simp] theorem resetBlock_aborted (s : State) : (resetBlock s).aborted = false := rfl
@[simp] theorem resetBlock_errcode (s : State) : (resetBlock s).errcode = 0#4 := rfl
@[simp] theorem resetBlock_sampleCount (s : State) : (resetBlock s).sampleCount = 0#32 := rfl
@[simp] theorem resetBlock_acc (s : State) : (resetBlock s).acc = 0#32 := rfl
@[simp] theorem resetBlock_lfsr (s : State) : (resetBlock s).lfsr = 0#31 := rfl
@[simp] theorem resetBlock_idx (s : State) : (resetBlock s).idx = 0#5 := rfl
@[simp] theorem resetBlock_lvl (s : State) : (resetBlock s).lvl = false := rfl
@[simp] theorem resetBlock_wSym (s : State) : (resetBlock s).wSym = 0#32 := rfl
@[simp] theorem resetBlock_wSamp (s : State) : (resetBlock s).wSamp = 0#32 := rfl
@[simp] theorem resetBlock_wDepth (s : State) : (resetBlock s).wDepth = 0#32 := rfl
@[simp] theorem resetBlock_wAmpl (s : State) : (resetBlock s).wAmpl = 0#16 := rfl
@[simp] theorem resetBlock_wPsel (s : State) : (resetBlock s).wPsel = .prbs31 := rfl
@[simp] theorem resetBlock_out (s : State) : (resetBlock s).out = s.out := rfl
@[simp] theorem resetBlock_reads (s : State) : (resetBlock s).reads = s.reads := rfl
@[simp] theorem resetBlock_schedule (s : State) : (resetBlock s).schedule = s.schedule := rfl

/-! ## `advancePrbs31` -/

@[simp] theorem advancePrbs31_psel (s : State) : (advancePrbs31 s).psel = s.psel := rfl
@[simp] theorem advancePrbs31_ieDone (s : State) : (advancePrbs31 s).ieDone = s.ieDone := rfl
@[simp] theorem advancePrbs31_ieErr (s : State) : (advancePrbs31 s).ieErr = s.ieErr := rfl
@[simp] theorem advancePrbs31_seed (s : State) : (advancePrbs31 s).seed = s.seed := rfl
@[simp] theorem advancePrbs31_symPeriod (s : State) :
    (advancePrbs31 s).symPeriod = s.symPeriod := rfl
@[simp] theorem advancePrbs31_sampPeriod (s : State) :
    (advancePrbs31 s).sampPeriod = s.sampPeriod := rfl
@[simp] theorem advancePrbs31_depth (s : State) : (advancePrbs31 s).depth = s.depth := rfl
@[simp] theorem advancePrbs31_amplitude (s : State) :
    (advancePrbs31 s).amplitude = s.amplitude := rfl
@[simp] theorem advancePrbs31_busy (s : State) : (advancePrbs31 s).busy = s.busy := rfl
@[simp] theorem advancePrbs31_done (s : State) : (advancePrbs31 s).done = s.done := rfl
@[simp] theorem advancePrbs31_err (s : State) : (advancePrbs31 s).err = s.err := rfl
@[simp] theorem advancePrbs31_aborted (s : State) : (advancePrbs31 s).aborted = s.aborted := rfl
@[simp] theorem advancePrbs31_errcode (s : State) : (advancePrbs31 s).errcode = s.errcode := rfl
@[simp] theorem advancePrbs31_sampleCount (s : State) :
    (advancePrbs31 s).sampleCount = s.sampleCount := rfl
@[simp] theorem advancePrbs31_acc (s : State) : (advancePrbs31 s).acc = s.acc := rfl
@[simp] theorem advancePrbs31_lfsr (s : State) : (advancePrbs31 s).lfsr = prbsNext s.lfsr := rfl
@[simp] theorem advancePrbs31_idx (s : State) : (advancePrbs31 s).idx = s.idx := rfl
@[simp] theorem advancePrbs31_lvl (s : State) : (advancePrbs31 s).lvl = prbsInject s.lfsr := rfl
@[simp] theorem advancePrbs31_wSym (s : State) : (advancePrbs31 s).wSym = s.wSym := rfl
@[simp] theorem advancePrbs31_wSamp (s : State) : (advancePrbs31 s).wSamp = s.wSamp := rfl
@[simp] theorem advancePrbs31_wDepth (s : State) : (advancePrbs31 s).wDepth = s.wDepth := rfl
@[simp] theorem advancePrbs31_wAmpl (s : State) : (advancePrbs31 s).wAmpl = s.wAmpl := rfl
@[simp] theorem advancePrbs31_wPsel (s : State) : (advancePrbs31 s).wPsel = s.wPsel := rfl
@[simp] theorem advancePrbs31_out (s : State) : (advancePrbs31 s).out = s.out := rfl
@[simp] theorem advancePrbs31_reads (s : State) : (advancePrbs31 s).reads = s.reads := rfl
@[simp] theorem advancePrbs31_schedule (s : State) : (advancePrbs31 s).schedule = s.schedule := rfl

/-! ## `advanceFixed20` -/

@[simp] theorem advanceFixed20_psel (s : State) : (advanceFixed20 s).psel = s.psel := rfl
@[simp] theorem advanceFixed20_ieDone (s : State) : (advanceFixed20 s).ieDone = s.ieDone := rfl
@[simp] theorem advanceFixed20_ieErr (s : State) : (advanceFixed20 s).ieErr = s.ieErr := rfl
@[simp] theorem advanceFixed20_seed (s : State) : (advanceFixed20 s).seed = s.seed := rfl
@[simp] theorem advanceFixed20_symPeriod (s : State) :
    (advanceFixed20 s).symPeriod = s.symPeriod := rfl
@[simp] theorem advanceFixed20_sampPeriod (s : State) :
    (advanceFixed20 s).sampPeriod = s.sampPeriod := rfl
@[simp] theorem advanceFixed20_depth (s : State) : (advanceFixed20 s).depth = s.depth := rfl
@[simp] theorem advanceFixed20_amplitude (s : State) :
    (advanceFixed20 s).amplitude = s.amplitude := rfl
@[simp] theorem advanceFixed20_busy (s : State) : (advanceFixed20 s).busy = s.busy := rfl
@[simp] theorem advanceFixed20_done (s : State) : (advanceFixed20 s).done = s.done := rfl
@[simp] theorem advanceFixed20_err (s : State) : (advanceFixed20 s).err = s.err := rfl
@[simp] theorem advanceFixed20_aborted (s : State) : (advanceFixed20 s).aborted = s.aborted := rfl
@[simp] theorem advanceFixed20_errcode (s : State) : (advanceFixed20 s).errcode = s.errcode := rfl
@[simp] theorem advanceFixed20_sampleCount (s : State) :
    (advanceFixed20 s).sampleCount = s.sampleCount := rfl
@[simp] theorem advanceFixed20_acc (s : State) : (advanceFixed20 s).acc = s.acc := rfl
@[simp] theorem advanceFixed20_lfsr (s : State) : (advanceFixed20 s).lfsr = s.lfsr := rfl
@[simp] theorem advanceFixed20_idx (s : State) : (advanceFixed20 s).idx = idxPlus s.idx 1 := rfl
@[simp] theorem advanceFixed20_lvl (s : State) :
    (advanceFixed20 s).lvl = pat (idxPlus s.idx 1) := rfl
@[simp] theorem advanceFixed20_wSym (s : State) : (advanceFixed20 s).wSym = s.wSym := rfl
@[simp] theorem advanceFixed20_wSamp (s : State) : (advanceFixed20 s).wSamp = s.wSamp := rfl
@[simp] theorem advanceFixed20_wDepth (s : State) : (advanceFixed20 s).wDepth = s.wDepth := rfl
@[simp] theorem advanceFixed20_wAmpl (s : State) : (advanceFixed20 s).wAmpl = s.wAmpl := rfl
@[simp] theorem advanceFixed20_wPsel (s : State) : (advanceFixed20 s).wPsel = s.wPsel := rfl
@[simp] theorem advanceFixed20_out (s : State) : (advanceFixed20 s).out = s.out := rfl
@[simp] theorem advanceFixed20_reads (s : State) : (advanceFixed20 s).reads = s.reads := rfl
@[simp] theorem advanceFixed20_schedule (s : State) :
    (advanceFixed20 s).schedule = s.schedule := rfl

/-! ## `emit` -/

@[simp] theorem emit_psel (y : Int) (last : Bool) (s : State) : (emit y last s).psel = s.psel := rfl
@[simp] theorem emit_ieDone (y : Int) (last : Bool) (s : State) :
    (emit y last s).ieDone = s.ieDone := rfl
@[simp] theorem emit_ieErr (y : Int) (last : Bool) (s : State) :
    (emit y last s).ieErr = s.ieErr := rfl
@[simp] theorem emit_seed (y : Int) (last : Bool) (s : State) : (emit y last s).seed = s.seed := rfl
@[simp] theorem emit_symPeriod (y : Int) (last : Bool) (s : State) :
    (emit y last s).symPeriod = s.symPeriod := rfl
@[simp] theorem emit_sampPeriod (y : Int) (last : Bool) (s : State) :
    (emit y last s).sampPeriod = s.sampPeriod := rfl
@[simp] theorem emit_depth (y : Int) (last : Bool) (s : State) :
    (emit y last s).depth = s.depth := rfl
@[simp] theorem emit_amplitude (y : Int) (last : Bool) (s : State) :
    (emit y last s).amplitude = s.amplitude := rfl
@[simp] theorem emit_busy (y : Int) (last : Bool) (s : State) : (emit y last s).busy = s.busy := rfl
@[simp] theorem emit_done (y : Int) (last : Bool) (s : State) : (emit y last s).done = s.done := rfl
@[simp] theorem emit_err (y : Int) (last : Bool) (s : State) : (emit y last s).err = s.err := rfl
@[simp] theorem emit_aborted (y : Int) (last : Bool) (s : State) :
    (emit y last s).aborted = s.aborted := rfl
@[simp] theorem emit_errcode (y : Int) (last : Bool) (s : State) :
    (emit y last s).errcode = s.errcode := rfl
@[simp] theorem emit_sampleCount (y : Int) (last : Bool) (s : State) :
    (emit y last s).sampleCount = s.sampleCount := rfl
@[simp] theorem emit_acc (y : Int) (last : Bool) (s : State) : (emit y last s).acc = s.acc := rfl
@[simp] theorem emit_lfsr (y : Int) (last : Bool) (s : State) : (emit y last s).lfsr = s.lfsr := rfl
@[simp] theorem emit_idx (y : Int) (last : Bool) (s : State) : (emit y last s).idx = s.idx := rfl
@[simp] theorem emit_lvl (y : Int) (last : Bool) (s : State) : (emit y last s).lvl = s.lvl := rfl
@[simp] theorem emit_wSym (y : Int) (last : Bool) (s : State) : (emit y last s).wSym = s.wSym := rfl
@[simp] theorem emit_wSamp (y : Int) (last : Bool) (s : State) :
    (emit y last s).wSamp = s.wSamp := rfl
@[simp] theorem emit_wDepth (y : Int) (last : Bool) (s : State) :
    (emit y last s).wDepth = s.wDepth := rfl
@[simp] theorem emit_wAmpl (y : Int) (last : Bool) (s : State) :
    (emit y last s).wAmpl = s.wAmpl := rfl
@[simp] theorem emit_wPsel (y : Int) (last : Bool) (s : State) :
    (emit y last s).wPsel = s.wPsel := rfl
@[simp] theorem emit_out (y : Int) (last : Bool) (s : State) :
    (emit y last s).out = s.out ++ [⟨BitVec.ofInt 32 y, last⟩] := rfl
@[simp] theorem emit_reads (y : Int) (last : Bool) (s : State) :
    (emit y last s).reads = s.reads := rfl
@[simp] theorem emit_schedule (y : Int) (last : Bool) (s : State) :
    (emit y last s).schedule = s.schedule := rfl

/-! ## `setAcc` -/

@[simp] theorem setAcc_psel (a : Int) (s : State) : (setAcc a s).psel = s.psel := rfl
@[simp] theorem setAcc_ieDone (a : Int) (s : State) : (setAcc a s).ieDone = s.ieDone := rfl
@[simp] theorem setAcc_ieErr (a : Int) (s : State) : (setAcc a s).ieErr = s.ieErr := rfl
@[simp] theorem setAcc_seed (a : Int) (s : State) : (setAcc a s).seed = s.seed := rfl
@[simp] theorem setAcc_symPeriod (a : Int) (s : State) : (setAcc a s).symPeriod = s.symPeriod := rfl
@[simp] theorem setAcc_sampPeriod (a : Int) (s : State) :
    (setAcc a s).sampPeriod = s.sampPeriod := rfl
@[simp] theorem setAcc_depth (a : Int) (s : State) : (setAcc a s).depth = s.depth := rfl
@[simp] theorem setAcc_amplitude (a : Int) (s : State) : (setAcc a s).amplitude = s.amplitude := rfl
@[simp] theorem setAcc_busy (a : Int) (s : State) : (setAcc a s).busy = s.busy := rfl
@[simp] theorem setAcc_done (a : Int) (s : State) : (setAcc a s).done = s.done := rfl
@[simp] theorem setAcc_err (a : Int) (s : State) : (setAcc a s).err = s.err := rfl
@[simp] theorem setAcc_aborted (a : Int) (s : State) : (setAcc a s).aborted = s.aborted := rfl
@[simp] theorem setAcc_errcode (a : Int) (s : State) : (setAcc a s).errcode = s.errcode := rfl
@[simp] theorem setAcc_sampleCount (a : Int) (s : State) :
    (setAcc a s).sampleCount = s.sampleCount := rfl
@[simp] theorem setAcc_acc (a : Int) (s : State) : (setAcc a s).acc = BitVec.ofInt 32 a := rfl
@[simp] theorem setAcc_lfsr (a : Int) (s : State) : (setAcc a s).lfsr = s.lfsr := rfl
@[simp] theorem setAcc_idx (a : Int) (s : State) : (setAcc a s).idx = s.idx := rfl
@[simp] theorem setAcc_lvl (a : Int) (s : State) : (setAcc a s).lvl = s.lvl := rfl
@[simp] theorem setAcc_wSym (a : Int) (s : State) : (setAcc a s).wSym = s.wSym := rfl
@[simp] theorem setAcc_wSamp (a : Int) (s : State) : (setAcc a s).wSamp = s.wSamp := rfl
@[simp] theorem setAcc_wDepth (a : Int) (s : State) : (setAcc a s).wDepth = s.wDepth := rfl
@[simp] theorem setAcc_wAmpl (a : Int) (s : State) : (setAcc a s).wAmpl = s.wAmpl := rfl
@[simp] theorem setAcc_wPsel (a : Int) (s : State) : (setAcc a s).wPsel = s.wPsel := rfl
@[simp] theorem setAcc_out (a : Int) (s : State) : (setAcc a s).out = s.out := rfl
@[simp] theorem setAcc_reads (a : Int) (s : State) : (setAcc a s).reads = s.reads := rfl
@[simp] theorem setAcc_schedule (a : Int) (s : State) : (setAcc a s).schedule = s.schedule := rfl

/-! ## `countSample` -/

@[simp] theorem countSample_psel (s : State) : (countSample s).psel = s.psel := rfl
@[simp] theorem countSample_ieDone (s : State) : (countSample s).ieDone = s.ieDone := rfl
@[simp] theorem countSample_ieErr (s : State) : (countSample s).ieErr = s.ieErr := rfl
@[simp] theorem countSample_seed (s : State) : (countSample s).seed = s.seed := rfl
@[simp] theorem countSample_symPeriod (s : State) : (countSample s).symPeriod = s.symPeriod := rfl
@[simp] theorem countSample_sampPeriod (s : State) :
    (countSample s).sampPeriod = s.sampPeriod := rfl
@[simp] theorem countSample_depth (s : State) : (countSample s).depth = s.depth := rfl
@[simp] theorem countSample_amplitude (s : State) : (countSample s).amplitude = s.amplitude := rfl
@[simp] theorem countSample_busy (s : State) :
    (countSample s).busy = if lastSample s then false else s.busy := rfl
@[simp] theorem countSample_done (s : State) :
    (countSample s).done = if lastSample s then true else s.done := rfl
@[simp] theorem countSample_err (s : State) : (countSample s).err = s.err := rfl
@[simp] theorem countSample_aborted (s : State) : (countSample s).aborted = s.aborted := rfl
@[simp] theorem countSample_errcode (s : State) : (countSample s).errcode = s.errcode := rfl
@[simp] theorem countSample_sampleCount (s : State) :
    (countSample s).sampleCount = s.sampleCount + 1#32 := rfl
@[simp] theorem countSample_acc (s : State) : (countSample s).acc = s.acc := rfl
@[simp] theorem countSample_lfsr (s : State) : (countSample s).lfsr = s.lfsr := rfl
@[simp] theorem countSample_idx (s : State) : (countSample s).idx = s.idx := rfl
@[simp] theorem countSample_lvl (s : State) : (countSample s).lvl = s.lvl := rfl
@[simp] theorem countSample_wSym (s : State) : (countSample s).wSym = s.wSym := rfl
@[simp] theorem countSample_wSamp (s : State) : (countSample s).wSamp = s.wSamp := rfl
@[simp] theorem countSample_wDepth (s : State) : (countSample s).wDepth = s.wDepth := rfl
@[simp] theorem countSample_wAmpl (s : State) : (countSample s).wAmpl = s.wAmpl := rfl
@[simp] theorem countSample_wPsel (s : State) : (countSample s).wPsel = s.wPsel := rfl
@[simp] theorem countSample_out (s : State) : (countSample s).out = s.out := rfl
@[simp] theorem countSample_reads (s : State) : (countSample s).reads = s.reads := rfl
@[simp] theorem countSample_schedule (s : State) : (countSample s).schedule = s.schedule := rfl

/-! ## `scheduleHop` -/

@[simp] theorem scheduleHop_psel (h : Hop) (s : State) : (scheduleHop h s).psel = s.psel := rfl
@[simp] theorem scheduleHop_ieDone (h : Hop) (s : State) :
    (scheduleHop h s).ieDone = s.ieDone := rfl
@[simp] theorem scheduleHop_ieErr (h : Hop) (s : State) : (scheduleHop h s).ieErr = s.ieErr := rfl
@[simp] theorem scheduleHop_seed (h : Hop) (s : State) : (scheduleHop h s).seed = s.seed := rfl
@[simp] theorem scheduleHop_symPeriod (h : Hop) (s : State) :
    (scheduleHop h s).symPeriod = s.symPeriod := rfl
@[simp] theorem scheduleHop_sampPeriod (h : Hop) (s : State) :
    (scheduleHop h s).sampPeriod = s.sampPeriod := rfl
@[simp] theorem scheduleHop_depth (h : Hop) (s : State) : (scheduleHop h s).depth = s.depth := rfl
@[simp] theorem scheduleHop_amplitude (h : Hop) (s : State) :
    (scheduleHop h s).amplitude = s.amplitude := rfl
@[simp] theorem scheduleHop_busy (h : Hop) (s : State) : (scheduleHop h s).busy = s.busy := rfl
@[simp] theorem scheduleHop_done (h : Hop) (s : State) : (scheduleHop h s).done = s.done := rfl
@[simp] theorem scheduleHop_err (h : Hop) (s : State) : (scheduleHop h s).err = s.err := rfl
@[simp] theorem scheduleHop_aborted (h : Hop) (s : State) :
    (scheduleHop h s).aborted = s.aborted := rfl
@[simp] theorem scheduleHop_errcode (h : Hop) (s : State) :
    (scheduleHop h s).errcode = s.errcode := rfl
@[simp] theorem scheduleHop_sampleCount (h : Hop) (s : State) :
    (scheduleHop h s).sampleCount = s.sampleCount := rfl
@[simp] theorem scheduleHop_acc (h : Hop) (s : State) : (scheduleHop h s).acc = s.acc := rfl
@[simp] theorem scheduleHop_lfsr (h : Hop) (s : State) : (scheduleHop h s).lfsr = s.lfsr := rfl
@[simp] theorem scheduleHop_idx (h : Hop) (s : State) : (scheduleHop h s).idx = s.idx := rfl
@[simp] theorem scheduleHop_lvl (h : Hop) (s : State) : (scheduleHop h s).lvl = s.lvl := rfl
@[simp] theorem scheduleHop_wSym (h : Hop) (s : State) : (scheduleHop h s).wSym = s.wSym := rfl
@[simp] theorem scheduleHop_wSamp (h : Hop) (s : State) : (scheduleHop h s).wSamp = s.wSamp := rfl
@[simp] theorem scheduleHop_wDepth (h : Hop) (s : State) :
    (scheduleHop h s).wDepth = s.wDepth := rfl
@[simp] theorem scheduleHop_wAmpl (h : Hop) (s : State) : (scheduleHop h s).wAmpl = s.wAmpl := rfl
@[simp] theorem scheduleHop_wPsel (h : Hop) (s : State) : (scheduleHop h s).wPsel = s.wPsel := rfl
@[simp] theorem scheduleHop_out (h : Hop) (s : State) : (scheduleHop h s).out = s.out := rfl
@[simp] theorem scheduleHop_reads (h : Hop) (s : State) : (scheduleHop h s).reads = s.reads := rfl
@[simp] theorem scheduleHop_schedule (h : Hop) (s : State) :
    (scheduleHop h s).schedule = .host h :: s.schedule := rfl

/-! ## `badAccess` -/

@[simp] theorem badAccess_psel (acc : Access) (s : State) : (badAccess acc s).psel = s.psel := by cases acc <;> rfl
@[simp] theorem badAccess_ieDone (acc : Access) (s : State) : (badAccess acc s).ieDone = s.ieDone := by cases acc <;> rfl
@[simp] theorem badAccess_ieErr (acc : Access) (s : State) : (badAccess acc s).ieErr = s.ieErr := by cases acc <;> rfl
@[simp] theorem badAccess_seed (acc : Access) (s : State) : (badAccess acc s).seed = s.seed := by cases acc <;> rfl
@[simp] theorem badAccess_symPeriod (acc : Access) (s : State) : (badAccess acc s).symPeriod = s.symPeriod := by cases acc <;> rfl
@[simp] theorem badAccess_sampPeriod (acc : Access) (s : State) : (badAccess acc s).sampPeriod = s.sampPeriod := by cases acc <;> rfl
@[simp] theorem badAccess_depth (acc : Access) (s : State) : (badAccess acc s).depth = s.depth := by cases acc <;> rfl
@[simp] theorem badAccess_amplitude (acc : Access) (s : State) : (badAccess acc s).amplitude = s.amplitude := by cases acc <;> rfl
@[simp] theorem badAccess_busy (acc : Access) (s : State) : (badAccess acc s).busy = s.busy := by cases acc <;> rfl
@[simp] theorem badAccess_done (acc : Access) (s : State) : (badAccess acc s).done = s.done := by cases acc <;> rfl
@[simp] theorem badAccess_aborted (acc : Access) (s : State) : (badAccess acc s).aborted = s.aborted := by cases acc <;> rfl
@[simp] theorem badAccess_sampleCount (acc : Access) (s : State) : (badAccess acc s).sampleCount = s.sampleCount := by cases acc <;> rfl
@[simp] theorem badAccess_acc (acc : Access) (s : State) : (badAccess acc s).acc = s.acc := by cases acc <;> rfl
@[simp] theorem badAccess_lfsr (acc : Access) (s : State) : (badAccess acc s).lfsr = s.lfsr := by cases acc <;> rfl
@[simp] theorem badAccess_idx (acc : Access) (s : State) : (badAccess acc s).idx = s.idx := by cases acc <;> rfl
@[simp] theorem badAccess_lvl (acc : Access) (s : State) : (badAccess acc s).lvl = s.lvl := by cases acc <;> rfl
@[simp] theorem badAccess_wSym (acc : Access) (s : State) : (badAccess acc s).wSym = s.wSym := by cases acc <;> rfl
@[simp] theorem badAccess_wSamp (acc : Access) (s : State) : (badAccess acc s).wSamp = s.wSamp := by cases acc <;> rfl
@[simp] theorem badAccess_wDepth (acc : Access) (s : State) : (badAccess acc s).wDepth = s.wDepth := by cases acc <;> rfl
@[simp] theorem badAccess_wAmpl (acc : Access) (s : State) : (badAccess acc s).wAmpl = s.wAmpl := by cases acc <;> rfl
@[simp] theorem badAccess_wPsel (acc : Access) (s : State) : (badAccess acc s).wPsel = s.wPsel := by cases acc <;> rfl
@[simp] theorem badAccess_out (acc : Access) (s : State) : (badAccess acc s).out = s.out := by cases acc <;> rfl
@[simp] theorem badAccess_schedule (acc : Access) (s : State) : (badAccess acc s).schedule = s.schedule := by cases acc <;> rfl

/-! ## `advance` -/

@[simp] theorem advance_psel (s : State) : (advance s).psel = s.psel := by unfold advance; split <;> rfl
@[simp] theorem advance_ieDone (s : State) : (advance s).ieDone = s.ieDone := by unfold advance; split <;> rfl
@[simp] theorem advance_ieErr (s : State) : (advance s).ieErr = s.ieErr := by unfold advance; split <;> rfl
@[simp] theorem advance_seed (s : State) : (advance s).seed = s.seed := by unfold advance; split <;> rfl
@[simp] theorem advance_symPeriod (s : State) : (advance s).symPeriod = s.symPeriod := by unfold advance; split <;> rfl
@[simp] theorem advance_sampPeriod (s : State) : (advance s).sampPeriod = s.sampPeriod := by unfold advance; split <;> rfl
@[simp] theorem advance_depth (s : State) : (advance s).depth = s.depth := by unfold advance; split <;> rfl
@[simp] theorem advance_amplitude (s : State) : (advance s).amplitude = s.amplitude := by unfold advance; split <;> rfl
@[simp] theorem advance_busy (s : State) : (advance s).busy = s.busy := by unfold advance; split <;> rfl
@[simp] theorem advance_done (s : State) : (advance s).done = s.done := by unfold advance; split <;> rfl
@[simp] theorem advance_err (s : State) : (advance s).err = s.err := by unfold advance; split <;> rfl
@[simp] theorem advance_aborted (s : State) : (advance s).aborted = s.aborted := by unfold advance; split <;> rfl
@[simp] theorem advance_errcode (s : State) : (advance s).errcode = s.errcode := by unfold advance; split <;> rfl
@[simp] theorem advance_sampleCount (s : State) : (advance s).sampleCount = s.sampleCount := by unfold advance; split <;> rfl
@[simp] theorem advance_acc (s : State) : (advance s).acc = s.acc := by unfold advance; split <;> rfl
@[simp] theorem advance_wSym (s : State) : (advance s).wSym = s.wSym := by unfold advance; split <;> rfl
@[simp] theorem advance_wSamp (s : State) : (advance s).wSamp = s.wSamp := by unfold advance; split <;> rfl
@[simp] theorem advance_wDepth (s : State) : (advance s).wDepth = s.wDepth := by unfold advance; split <;> rfl
@[simp] theorem advance_wAmpl (s : State) : (advance s).wAmpl = s.wAmpl := by unfold advance; split <;> rfl
@[simp] theorem advance_wPsel (s : State) : (advance s).wPsel = s.wPsel := by unfold advance; split <;> rfl
@[simp] theorem advance_out (s : State) : (advance s).out = s.out := by unfold advance; split <;> rfl
@[simp] theorem advance_reads (s : State) : (advance s).reads = s.reads := by unfold advance; split <;> rfl
@[simp] theorem advance_schedule (s : State) : (advance s).schedule = s.schedule := by unfold advance; split <;> rfl

/-! ## `advanceMany` -/

@[simp] theorem advanceMany_psel (k : Nat) (s : State) : (advanceMany k s).psel = s.psel := by unfold advanceMany; split <;> [rfl; (split <;> rfl)]
@[simp] theorem advanceMany_ieDone (k : Nat) (s : State) : (advanceMany k s).ieDone = s.ieDone := by unfold advanceMany; split <;> [rfl; (split <;> rfl)]
@[simp] theorem advanceMany_ieErr (k : Nat) (s : State) : (advanceMany k s).ieErr = s.ieErr := by unfold advanceMany; split <;> [rfl; (split <;> rfl)]
@[simp] theorem advanceMany_seed (k : Nat) (s : State) : (advanceMany k s).seed = s.seed := by unfold advanceMany; split <;> [rfl; (split <;> rfl)]
@[simp] theorem advanceMany_symPeriod (k : Nat) (s : State) : (advanceMany k s).symPeriod = s.symPeriod := by unfold advanceMany; split <;> [rfl; (split <;> rfl)]
@[simp] theorem advanceMany_sampPeriod (k : Nat) (s : State) : (advanceMany k s).sampPeriod = s.sampPeriod := by unfold advanceMany; split <;> [rfl; (split <;> rfl)]
@[simp] theorem advanceMany_depth (k : Nat) (s : State) : (advanceMany k s).depth = s.depth := by unfold advanceMany; split <;> [rfl; (split <;> rfl)]
@[simp] theorem advanceMany_amplitude (k : Nat) (s : State) : (advanceMany k s).amplitude = s.amplitude := by unfold advanceMany; split <;> [rfl; (split <;> rfl)]
@[simp] theorem advanceMany_busy (k : Nat) (s : State) : (advanceMany k s).busy = s.busy := by unfold advanceMany; split <;> [rfl; (split <;> rfl)]
@[simp] theorem advanceMany_done (k : Nat) (s : State) : (advanceMany k s).done = s.done := by unfold advanceMany; split <;> [rfl; (split <;> rfl)]
@[simp] theorem advanceMany_err (k : Nat) (s : State) : (advanceMany k s).err = s.err := by unfold advanceMany; split <;> [rfl; (split <;> rfl)]
@[simp] theorem advanceMany_aborted (k : Nat) (s : State) : (advanceMany k s).aborted = s.aborted := by unfold advanceMany; split <;> [rfl; (split <;> rfl)]
@[simp] theorem advanceMany_errcode (k : Nat) (s : State) : (advanceMany k s).errcode = s.errcode := by unfold advanceMany; split <;> [rfl; (split <;> rfl)]
@[simp] theorem advanceMany_sampleCount (k : Nat) (s : State) : (advanceMany k s).sampleCount = s.sampleCount := by unfold advanceMany; split <;> [rfl; (split <;> rfl)]
@[simp] theorem advanceMany_acc (k : Nat) (s : State) : (advanceMany k s).acc = s.acc := by unfold advanceMany; split <;> [rfl; (split <;> rfl)]
@[simp] theorem advanceMany_wSym (k : Nat) (s : State) : (advanceMany k s).wSym = s.wSym := by unfold advanceMany; split <;> [rfl; (split <;> rfl)]
@[simp] theorem advanceMany_wSamp (k : Nat) (s : State) : (advanceMany k s).wSamp = s.wSamp := by unfold advanceMany; split <;> [rfl; (split <;> rfl)]
@[simp] theorem advanceMany_wDepth (k : Nat) (s : State) : (advanceMany k s).wDepth = s.wDepth := by unfold advanceMany; split <;> [rfl; (split <;> rfl)]
@[simp] theorem advanceMany_wAmpl (k : Nat) (s : State) : (advanceMany k s).wAmpl = s.wAmpl := by unfold advanceMany; split <;> [rfl; (split <;> rfl)]
@[simp] theorem advanceMany_wPsel (k : Nat) (s : State) : (advanceMany k s).wPsel = s.wPsel := by unfold advanceMany; split <;> [rfl; (split <;> rfl)]
@[simp] theorem advanceMany_out (k : Nat) (s : State) : (advanceMany k s).out = s.out := by unfold advanceMany; split <;> [rfl; (split <;> rfl)]
@[simp] theorem advanceMany_reads (k : Nat) (s : State) : (advanceMany k s).reads = s.reads := by unfold advanceMany; split <;> [rfl; (split <;> rfl)]
@[simp] theorem advanceMany_schedule (k : Nat) (s : State) : (advanceMany k s).schedule = s.schedule := by unfold advanceMany; split <;> [rfl; (split <;> rfl)]

/-! ## `badAccess` -/

@[simp] theorem badAccess_err (acc : Access) (s : State) : (badAccess acc s).err = true := by
  cases acc <;> rfl

@[simp] theorem badAccess_errcode (acc : Access) (s : State) :
    (badAccess acc s).errcode = if s.err then s.errcode else 6#4 := by cases acc <;> rfl

@[simp] theorem badAccess_read_reads (s : State) :
    (badAccess .read s).reads = s.reads ++ [0#32] := rfl

@[simp] theorem badAccess_write_reads (v : Word) (s : State) :
    (badAccess (.write v) s).reads = s.reads := rfl

/-! ## `engineSample` -/

@[simp] theorem engineSample_psel (s : State) : (engineSample s).psel = s.psel := by
  simp [engineSample]
@[simp] theorem engineSample_ieDone (s : State) : (engineSample s).ieDone = s.ieDone := by
  simp [engineSample]
@[simp] theorem engineSample_ieErr (s : State) : (engineSample s).ieErr = s.ieErr := by
  simp [engineSample]
@[simp] theorem engineSample_seed (s : State) : (engineSample s).seed = s.seed := by
  simp [engineSample]
@[simp] theorem engineSample_symPeriod (s : State) : (engineSample s).symPeriod = s.symPeriod := by
  simp [engineSample]
@[simp] theorem engineSample_sampPeriod (s : State) : (engineSample s).sampPeriod = s.sampPeriod := by
  simp [engineSample]
@[simp] theorem engineSample_depth (s : State) : (engineSample s).depth = s.depth := by
  simp [engineSample]
@[simp] theorem engineSample_amplitude (s : State) : (engineSample s).amplitude = s.amplitude := by
  simp [engineSample]
@[simp] theorem engineSample_busy (s : State) :
    (engineSample s).busy = if lastSample s then false else s.busy := by
  simp [engineSample, lastSample]
@[simp] theorem engineSample_done (s : State) :
    (engineSample s).done = if lastSample s then true else s.done := by
  simp [engineSample, lastSample]
@[simp] theorem engineSample_err (s : State) : (engineSample s).err = s.err := by
  simp [engineSample]
@[simp] theorem engineSample_aborted (s : State) : (engineSample s).aborted = s.aborted := by
  simp [engineSample]
@[simp] theorem engineSample_errcode (s : State) : (engineSample s).errcode = s.errcode := by
  simp [engineSample]
@[simp] theorem engineSample_sampleCount (s : State) :
    (engineSample s).sampleCount = s.sampleCount + 1#32 := by
  simp [engineSample, lastSample]
@[simp] theorem engineSample_acc (s : State) :
    (engineSample s).acc = BitVec.ofInt 32 (accAfter s.acc.toNat s.wSamp.toNat s.wSym.toNat (stepAdvances s)) := by
  simp [engineSample, lastSample]
@[simp] theorem engineSample_lfsr (s : State) :
    (engineSample s).lfsr = (advanceMany (stepAdvances s) s).lfsr := by
  simp [engineSample, lastSample]
@[simp] theorem engineSample_idx (s : State) :
    (engineSample s).idx = (advanceMany (stepAdvances s) s).idx := by
  simp [engineSample, lastSample]
@[simp] theorem engineSample_lvl (s : State) :
    (engineSample s).lvl = (advanceMany (stepAdvances s) s).lvl := by
  simp [engineSample, lastSample]
@[simp] theorem engineSample_wSym (s : State) : (engineSample s).wSym = s.wSym := by
  simp [engineSample]
@[simp] theorem engineSample_wSamp (s : State) : (engineSample s).wSamp = s.wSamp := by
  simp [engineSample]
@[simp] theorem engineSample_wDepth (s : State) : (engineSample s).wDepth = s.wDepth := by
  simp [engineSample]
@[simp] theorem engineSample_wAmpl (s : State) : (engineSample s).wAmpl = s.wAmpl := by
  simp [engineSample]
@[simp] theorem engineSample_wPsel (s : State) : (engineSample s).wPsel = s.wPsel := by
  simp [engineSample]
@[simp] theorem engineSample_out (s : State) :
    (engineSample s).out = s.out ++ [⟨BitVec.ofInt 32 (sampleCode s.wAmpl.toNat s.wSamp.toNat s.acc.toNat s.lvl
      (advanceMany (stepAdvances s) s).lvl), lastSample s⟩] := by
  simp [engineSample, lastSample]
@[simp] theorem engineSample_reads (s : State) : (engineSample s).reads = s.reads := by
  simp [engineSample]
@[simp] theorem engineSample_schedule (s : State) : (engineSample s).schedule = s.schedule := by
  simp [engineSample]

end Sys2Proof.Machine
end

