-- ==== Sys2Proof/Laws/Pattern.lean ====
section
/-! SUPPORT. The pattern sources: the shift register is linear and satisfies `x^31 + x^3 + 1`, so
the jump of `prbsJump` is the iterated advance, and `advanceMany k` is `k` advances
(43_sample_synthesis.md R143). -/

namespace Sys2Proof.Machine

theorem prbsNext_getLsbD_zero (l : Lfsr) : (prbsNext l).getLsbD 0 = prbsInject l := by
  simp only [prbsNext, BitVec.getLsbD_append, BitVec.getLsbD_ofBool]; simp

/-- The same in the form simp leaves. -/
theorem prbsNext_getElem_zero (l : Lfsr) : (prbsNext l)[0] = prbsInject l := by
  rw [← BitVec.getLsbD_eq_getElem, prbsNext_getLsbD_zero]

theorem prbsNext_getLsbD_succ (l : Lfsr) (i : Nat) (hi : i < 30) :
    (prbsNext l).getLsbD (i + 1) = l.getLsbD i := by
  simp only [prbsNext, BitVec.getLsbD_append, BitVec.getLsbD_extractLsb']
  simp [hi]

theorem prbsNext_getLsbD (l : Lfsr) (i : Nat) (hi : i < 31) :
    (prbsNext l).getLsbD i = if i = 0 then prbsInject l else l.getLsbD (i - 1) := by
  cases i with
  | zero => simpa using prbsNext_getLsbD_zero l
  | succ i => simpa using prbsNext_getLsbD_succ l i (by omega)

theorem lfsr_xor_left_comm (a b c : Lfsr) : a ^^^ (b ^^^ c) = b ^^^ (a ^^^ c) := by
  rw [← BitVec.xor_assoc, BitVec.xor_comm a, BitVec.xor_assoc]

theorem prbsNext_iterate_succ (n : Nat) (l : Lfsr) :
    prbsNext (prbsNext^[n] l) = prbsNext^[n + 1] l :=
  (Function.iterate_succ_apply' prbsNext n l).symm

theorem prbsInject_xor (a b : Lfsr) :
    prbsInject (a ^^^ b) = (prbsInject a ^^ prbsInject b) := by
  simp only [prbsInject, BitVec.getLsbD_xor]
  cases a.getLsbD 30 <;> cases a.getLsbD 27 <;> cases b.getLsbD 30 <;> cases b.getLsbD 27 <;> rfl

theorem prbsNext_xor (a b : Lfsr) : prbsNext (a ^^^ b) = prbsNext a ^^^ prbsNext b := by
  apply BitVec.eq_of_getLsbD_eq
  intro i hi
  rw [BitVec.getLsbD_xor, prbsNext_getLsbD _ _ hi, prbsNext_getLsbD _ _ hi, prbsNext_getLsbD _ _ hi]
  split
  · exact prbsInject_xor a b
  · exact BitVec.getLsbD_xor

theorem prbsNext_zero : prbsNext 0#31 = 0#31 := by decide

theorem prbsNext_iterate_xor (n : Nat) (a b : Lfsr) :
    prbsNext^[n] (a ^^^ b) = prbsNext^[n] a ^^^ prbsNext^[n] b := by
  induction n generalizing a b with
  | zero => rfl
  | succ n ih => simp only [Function.iterate_succ, Function.comp_apply, prbsNext_xor, ih]

theorem prbsNext_iterate_zero (n : Nat) : prbsNext^[n] 0#31 = 0#31 := by
  induction n with
  | zero => rfl
  | succ n ih => rw [Function.iterate_succ_apply, prbsNext_zero, ih]

/-- Every bit passes through bit 30 on its way out. -/
theorem prbsNext_iterate_top (n : Nat) (hn : n ≤ 30) (l : Lfsr) :
    (prbsNext^[n] l).getLsbD 30 = l.getLsbD (30 - n) := by
  induction n generalizing l with
  | zero => rfl
  | succ n ih =>
    rw [Function.iterate_succ_apply, ih (by omega)]
    have : 30 - n = (30 - (n + 1)) + 1 := by omega
    rw [this, prbsNext_getLsbD_succ _ _ (by omega)]

/-- The recurrence of the register, on its top bit. -/
theorem prbsNext_iterate_31_top (l : Lfsr) :
    (prbsNext^[31] l).getLsbD 30 = (l.getLsbD 30 ^^ (prbsNext^[3] l).getLsbD 30) := by
  rw [Function.iterate_succ_apply prbsNext 30,
    prbsNext_iterate_top 30 (by omega), prbsNext_iterate_top 3 (by omega), prbsNext_getLsbD_zero]
  rfl

/-- The register satisfies `x^31 + x^3 + 1`. -/
theorem prbsNext_iterate_31 (l : Lfsr) : prbsNext^[31] l = l ^^^ prbsNext^[3] l := by
  apply BitVec.eq_of_getLsbD_eq
  intro i hi
  have top (m : Lfsr) : m.getLsbD i = (prbsNext^[30 - i] m).getLsbD 30 := by
    rw [prbsNext_iterate_top _ (by omega)]; congr 1; omega
  rw [BitVec.getLsbD_xor, top, top l, top (prbsNext^[3] l), ← Function.iterate_add_apply,
    ← Function.iterate_add_apply, Nat.add_comm, Nat.add_comm _ 3, Function.iterate_add_apply,
    Function.iterate_add_apply, prbsNext_iterate_31_top]

/-- Horner's rule is additive in the coefficients. -/
theorem horner_xor_coeffs (f : Lfsr → Lfsr) (hf : ∀ a b, f (a ^^^ b) = f a ^^^ f b) (c d v : Lfsr)
    (n : Nat) : horner f (c ^^^ d) v n = horner f c v n ^^^ horner f d v n := by
  induction n with
  | zero => simp [horner]
  | succ n ih =>
    simp only [horner, ih, hf, BitVec.getLsbD_xor]
    cases c.getLsbD (30 - n) <;> cases d.getLsbD (30 - n) <;>
      simp [BitVec.xor_assoc, BitVec.xor_comm, lfsr_xor_left_comm]

/-- The polynomial `c` applied to the register: the sum of the states `i` advances ahead over the
coefficients `i` of `c`. -/
def polyAct (c l : Lfsr) : Lfsr := horner prbsNext c l 31

theorem polyAct_xor (c d l : Lfsr) : polyAct (c ^^^ d) l = polyAct c l ^^^ polyAct d l :=
  horner_xor_coeffs prbsNext prbsNext_xor c d l 31

theorem polyAct_zero (l : Lfsr) : polyAct 0#31 l = 0#31 := by
  have h : polyAct 0#31 l ^^^ polyAct 0#31 l = polyAct 0#31 l := by
    rw [← polyAct_xor]; simp
  rw [← h]; simp

theorem polyAct_one (l : Lfsr) : polyAct 1#31 l = l := by
  simp [polyAct, horner, prbsNext_zero]

theorem polyAct_nine (l : Lfsr) : polyAct 9#31 l = l ^^^ prbsNext^[3] l := by
  simp [polyAct, horner, prbsNext_zero, BitVec.xor_comm]

theorem horner_shift (c v : Lfsr) (n : Nat) (hn : n ≤ 30) :
    horner prbsNext (c <<< 1) v n =
      horner prbsNext c v (n + 1) ^^^ prbsNext^[n] (if c.getLsbD 30 then v else 0#31) := by
  induction n with
  | zero => simp [horner, prbsNext_zero]
  | succ n ih =>
    rw [horner, ih (by omega), prbsNext_xor, prbsNext_iterate_succ, horner.eq_2 _ _ _ (n+1)]
    have : (c <<< 1).getLsbD (30 - n) = c.getLsbD (30 - (n + 1)) := by
      simp only [BitVec.getLsbD_shiftLeft]
      have h1 : 30 - n < 31 := by omega
      have h2 : ¬ 30 - n < 1 := by omega
      simp only [h1, h2, decide_true, decide_false, Bool.not_false, Bool.true_and]
      congr 1
    rw [this, BitVec.xor_assoc, BitVec.xor_assoc]
    congr 1
    rw [BitVec.xor_comm]

theorem polyAct_mulX (c l : Lfsr) : polyAct (polyMulX c) l = prbsNext (polyAct c l) := by
  have hshift : polyAct (c <<< 1) l =
      prbsNext (polyAct c l) ^^^ prbsNext^[31] (if c.getLsbD 30 then l else 0#31) := by
    rw [polyAct, horner, horner_shift c l 30 (by omega), prbsNext_xor, prbsNext_iterate_succ]
    have : (c <<< 1).getLsbD (30 - 30) = false := by simp
    rw [this]; simp [polyAct]
  rw [polyMulX, polyAct_xor, hshift]
  cases h : c.getLsbD 30
  · simp [polyAct_zero, prbsNext_iterate_zero]
  · simp [polyAct_nine, prbsNext_iterate_31]

theorem polyAct_horner (a b l : Lfsr) (n : Nat) :
    polyAct (horner polyMulX a b n) l = horner prbsNext a (polyAct b l) n := by
  induction n with
  | zero => simp [horner, polyAct_zero]
  | succ n ih =>
    rw [horner, horner, polyAct_xor, polyAct_mulX, ih]
    cases a.getLsbD (30 - n) <;> simp [polyAct_zero]

theorem polyAct_mul (a b l : Lfsr) : polyAct (polyMul a b) l = polyAct a (polyAct b l) :=
  polyAct_horner a b l 31

theorem polyAct_powX (fuel k : Nat) (hk : k < 2 ^ fuel) (l : Lfsr) :
    polyAct (polyPowX fuel k) l = prbsNext^[k] l := by
  induction fuel generalizing k l with
  | zero =>
    have : k = 0 := by simpa using hk
    subst this; simp [polyPowX, polyAct_one]
  | succ fuel ih =>
    have hhalf : k / 2 < 2 ^ fuel := by omega
    by_cases h0 : k = 0
    · subst h0; simp [polyPowX, polyAct_one]
    · by_cases hodd : k % 2 = 1
      · have e : k = (k / 2 + k / 2) + 1 := by omega
        simp only [polyPowX, h0, hodd, if_true, if_false]
        rw [polyAct_mulX, polyAct_mul, ih _ hhalf, ih _ hhalf, ← Function.iterate_add_apply,
          prbsNext_iterate_succ, ← e]
      · have e : k = k / 2 + k / 2 := by omega
        simp only [polyPowX, h0, hodd, if_false]
        rw [polyAct_mul, ih _ hhalf, ih _ hhalf, ← Function.iterate_add_apply, ← e]

/-- The jump is the iterated advance (43_sample_synthesis.md R143). -/
theorem prbsJump_eq_iterate (k : Nat) (hk : k < 2 ^ 32) (l : Lfsr) :
    prbsJump k l = prbsNext^[k] l := polyAct_powX 32 k hk l

/-- The level after at least one advance is the bit last injected. -/
theorem prbsNext_iterate_bit_zero (k : Nat) (l : Lfsr) :
    (prbsNext^[k + 1] l).getLsbD 0 = prbsInject (prbsNext^[k] l) := by
  rw [← prbsNext_iterate_succ, prbsNext_getLsbD_zero]

theorem idxPlus_toNat (idx : BitVec 5) (k : Nat) : (idxPlus idx k).toNat = (idx.toNat + k) % 20 := by
  simp only [idxPlus, BitVec.toNat_ofNat]
  omega

theorem idxPlus_idxPlus (idx : BitVec 5) (j k : Nat) :
    idxPlus (idxPlus idx j) k = idxPlus idx (j + k) := by
  apply BitVec.eq_of_toNat_eq
  simp only [idxPlus_toNat]
  omega

/-- `k` advances at once are `k` single advances (43_sample_synthesis.md R143). -/
theorem advanceMany_eq_iterate (k : Nat) (hk : k < 2 ^ 32) (s : State) :
    advanceMany k s = advance^[k] s := by
  induction k with
  | zero => rfl
  | succ k ih =>
    rw [Function.iterate_succ_apply', ← ih (by omega)]
    cases hp : s.wPsel with
    | prbs31 =>
      simp only [advance, advanceMany_wPsel, hp, advancePrbs31]
      have hj : prbsJump (k + 1) s.lfsr = prbsNext (prbsJump k s.lfsr) := by
        rw [prbsJump_eq_iterate _ hk, prbsJump_eq_iterate _ (by omega), prbsNext_iterate_succ]
      by_cases h0 : k = 0
      · subst h0
        have h1 : prbsJump 1 s.lfsr = prbsNext s.lfsr := by
          rw [prbsJump_eq_iterate _ (by omega)]; rfl
        simp [advanceMany, hp, h1, prbsNext_getElem_zero]
      · simp [advanceMany, hp, h0, hj, prbsNext_getElem_zero]
    | fixed20 =>
      simp only [advance, advanceMany_wPsel, hp, advanceFixed20]
      by_cases h0 : k = 0
      · subst h0; simp [advanceMany, hp]
      · simp [advanceMany, hp, h0, idxPlus_idxPlus]

end Sys2Proof.Machine
end

