-- ==== Sys2Proof/Laws/Engine.lean ====
section
/-! SUPPORT. The arithmetic of one engine step: what the advance count and the accumulator after the
advances satisfy, and the three things an engine step can answer. -/

namespace Sys2Proof.Machine

/-- Ceiling division by a positive number, by its two bounds. -/
theorem ceilDiv_bounds (d m : Nat) (hm : 0 < m) :
    d ≤ (d + m - 1) / m * m ∧ (0 < d → (d + m - 1) / m * m < d + m) := by
  have h := Nat.div_add_mod (d + m - 1) m
  have h' := Nat.mod_lt (d + m - 1) hm
  rw [Nat.mul_comm] at h
  constructor <;> intros <;> omega

/-- Below a ceiling, `j * m` stays below the dividend. -/
theorem mul_lt_of_lt_ceilDiv (d m j : Nat) (hm : 0 < m) (hj : j < (d + m - 1) / m) : j * m < d := by
  have h := (Nat.le_div_iff_mul_le hm).1 (show j + 1 ≤ _ from hj)
  rw [Nat.add_mul] at h
  omega

/-- Where the decremented accumulator is not below zero no advance is made. -/
theorem advanceCount_of_le (pre samp sym : Nat) (h : samp ≤ pre) : advanceCount pre samp sym = 0 := by
  simp [advanceCount, h]

/-- After the advances the accumulator is not below zero (43_sample_synthesis.md R143). -/
theorem accAfter_nonneg (pre samp sym : Nat) (h : 0 < sym ∨ samp ≤ pre) :
    0 ≤ accAfter pre samp sym (advanceCount pre samp sym) := by
  unfold accAfter advanceCount
  split_ifs with hle
  · simp; omega
  · have := (ceilDiv_bounds (samp - pre) sym (by omega)).1
    zify [show pre ≤ samp by omega] at this
    push_cast at this ⊢
    omega

/-- Before the last advance the accumulator is below zero (43_sample_synthesis.md R143). -/
theorem accAfter_neg_of_lt (pre samp sym j : Nat) (hm : 0 < sym)
    (hj : j < advanceCount pre samp sym) : accAfter pre samp sym j < 0 := by
  unfold advanceCount at hj
  split_ifs at hj with hle
  · omega
  · have := mul_lt_of_lt_ceilDiv _ _ _ hm hj
    unfold accAfter
    zify [show pre ≤ samp by omega] at this
    omega

/-- From an accumulator of at most one symbol period and a positive sample period, the accumulator
after the advances is below one symbol period (43_sample_synthesis.md R152). -/
theorem accAfter_lt (pre samp sym : Nat) (hs : 0 < samp) (hm : 0 < sym) (hp : pre ≤ sym) :
    accAfter pre samp sym (advanceCount pre samp sym) < sym := by
  unfold accAfter advanceCount
  split_ifs with hle
  · simp; omega
  · have := (ceilDiv_bounds (samp - pre) sym hm).2 (by omega)
    zify [show pre ≤ samp by omega] at this
    push_cast at this ⊢
    omega

/-- The advances of one step are at most the sample period, so they fit 32 bits. -/
theorem advanceCount_le (pre samp sym : Nat) (hm : 0 < sym) : advanceCount pre samp sym ≤ samp := by
  unfold advanceCount
  split_ifs with hle
  · omega
  · apply Nat.le_of_lt_succ
    rw [Nat.div_lt_iff_lt_mul hm]
    have : samp + 1 ≤ (samp + 1) * sym := Nat.le_mul_of_pos_right _ hm
    have h2 : samp.succ * sym = samp * sym + sym := Nat.succ_mul _ _
    have h3 : samp ≤ samp * sym := Nat.le_mul_of_pos_right _ hm
    omega

/-- The advances of a step fit 32 bits, so the jump of `advanceMany` is exact. -/
theorem stepAdvances_lt (s : State) (h : s.wSym ≠ 0#32) : stepAdvances s < 2 ^ 32 := by
  have hm : 0 < s.wSym.toNat := by
    rcases Nat.eq_zero_or_pos s.wSym.toNat with h0 | h0
    · exact absurd (BitVec.eq_of_toNat_eq (by simpa using h0)) h
    · exact h0
  have := advanceCount_le s.acc.toNat s.wSamp.toNat s.wSym.toNat hm
  have := s.wSamp.isLt
  unfold stepAdvances
  omega

/-- An engine step is not enabled, diverges, or answers the state of `engineSample`. -/
theorem execEngineStep_cases (s : State) :
    (s.busy = false ∧ execEngineStep s = .next s) ∨
    (s.busy = true ∧ loopDiverges s = true ∧ execEngineStep s = .fault .advanceLoopDiverges) ∨
    (s.busy = true ∧ loopDiverges s = false ∧ execEngineStep s = .next (engineSample s)) := by
  unfold execEngineStep
  cases s.busy <;> cases loopDiverges s <;> simp

end Sys2Proof.Machine
end

