-- ==== Sys2Proof/Laws/Ops.lean ====
section
/-! SUPPORT. What the shared operations and the dispatch can do, said once: the state that each kind
of operation answers with, which proofs cite instead of unfolding the meanings. -/

namespace Sys2Proof.Machine

/-- `START` records the first of its errors, or begins the run (41_commands.md R121). -/
theorem execCmdStart_cases (s : State) :
    (s.busy = true ∧ execCmdStart s = .next (raiseErr .startWhileBusy s)) ∨
    (s.busy = false ∧ s.sampPeriod = 0#32 ∧
      execCmdStart s = .next (raiseErr .invalidSampPeriod s)) ∨
    (s.busy = false ∧ s.sampPeriod ≠ 0#32 ∧ s.symPeriod = 0#32 ∧
      execCmdStart s = .next (raiseErr .invalidSymPeriod s)) ∨
    (s.busy = false ∧ s.sampPeriod ≠ 0#32 ∧ s.symPeriod ≠ 0#32 ∧ s.depth = 0#32 ∧
      execCmdStart s = .next (raiseErr .invalidDepth s)) ∨
    (s.busy = false ∧ s.sampPeriod ≠ 0#32 ∧ s.symPeriod ≠ 0#32 ∧ s.depth ≠ 0#32 ∧
      execCmdStart s = .next (beginRun s)) := by
  unfold execCmdStart startError
  by_cases hb : s.busy = true
  · simp [hb]
  · by_cases h1 : s.sampPeriod = 0#32
    · simp [hb, h1]
    · by_cases h2 : s.symPeriod = 0#32
      · simp [hb, h1, h2]
      · by_cases h3 : s.depth = 0#32 <;> simp [hb, h1, h2, h3]

/-- A bad access is its error record, on the state that has returned 0 where it is a read
(40_register_access.md R113). -/
theorem badAccess_read (s : State) :
    badAccess .read s = raiseErr .badAccess (returnData 0#32 s) := rfl

/-- A bad write is its error record (40_register_access.md R113). -/
theorem badAccess_write (v : Word) (s : State) :
    badAccess (.write v) s = raiseErr .badAccess s := rfl

/-- Everything an operation that answers a next state can have done. -/
theorem exec_next_cases (i : Instr) (s t : State) (h : exec i s = .next t) :
    (∃ r : Reg, i = readOf r ∧ t = readReg r s) ∨
    (∃ v : Word,
      (i = .wrCtrl v ∧
        t = { s with psel := ctrlPsel v, ieDone := ctrlIeDone v, ieErr := ctrlIeErr v }) ∨
      (i = .wrSeed v ∧ t = { s with seed := seedField v }) ∨
      (i = .wrSymPeriod v ∧ t = { s with symPeriod := v }) ∨
      (i = .wrSampPeriod v ∧ t = { s with sampPeriod := v }) ∨
      (i = .wrDepth v ∧ t = { s with depth := v }) ∨
      (i = .wrAmplitude v ∧ t = { s with amplitude := amplitudeField v }) ∨
      (i = .wrStatus v ∧ t = ackStatus v s)) ∨
    (∃ v : Word, (i = .wrId v ∨ i = .wrSampleCount v ∨ i = .wrAcc v ∨ i = .wrLfsr v ∨
      i = .wrPstate v) ∧ t = raiseErr .badAccess s) ∨
    (∃ (off : Offset) (acc : Access),
      (i = .badAccessMisaligned off acc ∨ i = .badAccessUnmapped off acc) ∧ t = badAccess acc s) ∨
    (i = .cmdNop ∧ t = s) ∨
    (i = .cmdStart ∧ ∃ c : ErrCause, startError s = some c ∧ t = raiseErr c s) ∨
    (i = .cmdStart ∧ startError s = none ∧ t = beginRun s) ∨
    (i = .cmdAbort ∧ s.busy = true ∧ t = abortRun s) ∨
    (i = .cmdAbort ∧ s.busy = false ∧ t = s) ∨
    ((i = .cmdSoftReset ∨ i = .reset) ∧ t = resetBlock s) ∨
    (∃ v : Word, i = .cmdIllegal v ∧ t = raiseErr .illegalCmd s) ∨
    (i = .engineStep ∧ s.busy = false ∧ t = s) ∨
    (i = .engineStep ∧ s.busy = true ∧ loopDiverges s = false ∧ t = engineSample s) ∨
    (i = .advPrbs31 ∧ t = advancePrbs31 s) ∨
    (i = .advFixed20 ∧ t = advanceFixed20 s) := by
  cases i with
  | rdId => cases h; exact .inl ⟨.id, rfl, rfl⟩
  | rdCtrl => cases h; exact .inl ⟨.ctrl, rfl, rfl⟩
  | rdSeed => cases h; exact .inl ⟨.seed, rfl, rfl⟩
  | rdSymPeriod => cases h; exact .inl ⟨.symPeriod, rfl, rfl⟩
  | rdSampPeriod => cases h; exact .inl ⟨.sampPeriod, rfl, rfl⟩
  | rdDepth => cases h; exact .inl ⟨.depth, rfl, rfl⟩
  | rdAmplitude => cases h; exact .inl ⟨.amplitude, rfl, rfl⟩
  | rdCmd => cases h; exact .inl ⟨.cmd, rfl, rfl⟩
  | rdStatus => cases h; exact .inl ⟨.status, rfl, rfl⟩
  | rdSampleCount => cases h; exact .inl ⟨.sampleCount, rfl, rfl⟩
  | rdAcc => cases h; exact .inl ⟨.acc, rfl, rfl⟩
  | rdLfsr => cases h; exact .inl ⟨.lfsr, rfl, rfl⟩
  | rdPstate => cases h; exact .inl ⟨.pstate, rfl, rfl⟩
  | wrCtrl v => cases h; exact .inr (.inl ⟨v, .inl ⟨rfl, rfl⟩⟩)
  | wrSeed v => cases h; exact .inr (.inl ⟨v, by simp⟩)
  | wrSymPeriod v => cases h; exact .inr (.inl ⟨v, by simp⟩)
  | wrSampPeriod v => cases h; exact .inr (.inl ⟨v, by simp⟩)
  | wrDepth v => cases h; exact .inr (.inl ⟨v, by simp⟩)
  | wrAmplitude v => cases h; exact .inr (.inl ⟨v, by simp⟩)
  | wrStatus v => cases h; exact .inr (.inl ⟨v, by simp⟩)
  | wrId v => cases h; exact .inr (.inr (.inl ⟨v, by simp, rfl⟩))
  | wrSampleCount v => cases h; exact .inr (.inr (.inl ⟨v, by simp, rfl⟩))
  | wrAcc v => cases h; exact .inr (.inr (.inl ⟨v, by simp, rfl⟩))
  | wrLfsr v => cases h; exact .inr (.inr (.inl ⟨v, by simp, rfl⟩))
  | wrPstate v => cases h; exact .inr (.inr (.inl ⟨v, by simp, rfl⟩))
  | badAccessMisaligned off acc =>
    cases h; exact .inr (.inr (.inr (.inl ⟨off, acc, .inl rfl, rfl⟩)))
  | badAccessUnmapped off acc =>
    cases h; exact .inr (.inr (.inr (.inl ⟨off, acc, .inr rfl, rfl⟩)))
  | cmdNop => cases h; simp
  | cmdStart =>
    simp only [exec, execCmdStart] at h
    split at h <;> cases h <;> simp_all
  | cmdAbort =>
    simp only [exec, execCmdAbort] at h
    split at h <;> cases h <;> simp_all
  | cmdSoftReset => cases h; simp
  | cmdIllegal v => cases h; simp
  | engineStep =>
    simp only [exec] at h
    obtain ⟨hb, he⟩ | ⟨hb, hd, he⟩ | ⟨hb, hd, he⟩ := execEngineStep_cases s
    · rw [he] at h; cases h; simp [hb]
    · rw [he] at h; cases h
    · rw [he] at h; cases h; simp [hb, hd]
  | advPrbs31 => cases h; simp
  | advFixed20 => cases h; simp
  | reset => cases h; simp

/-- A step is the operation of the next action, or nothing where none is scheduled. -/
theorem step_next_cases (s t : State) (h : step s = .next t) :
    (s.schedule = [] ∧ t = s) ∨
    (∃ (a : Action) (rest : List Action), s.schedule = a :: rest ∧
      exec (actionInstr a) { s with schedule := rest } = .next t) := by
  simp only [step, nextAction] at h
  cases hs : s.schedule with
  | nil => rw [hs] at h; cases h; exact .inl ⟨rfl, rfl⟩
  | cons a rest => rw [hs] at h; exact .inr ⟨a, rest, rfl, h⟩

end Sys2Proof.Machine
end

