-- ==== Sys2Proof/Laws/PerInstr.lean ====
section
/-! SUPPORT. Per-instruction families (LAWS.json): the word of an operation matches its row of
spec/opcode_table.json (30_encoding.md R81). -/

namespace Sys2Proof.Laws

/-- The word that `encode` gives carries the `match` of the operation's row under its `mask`. -/
def EncodingMatchesTable.Statement (i : Instr) : Prop :=
  ∀ w m k : Hop, encode i = some w → tableRow i = some (m, k) → w &&& k = m

theorem encodingMatchesTable_of_masked (i : Instr) (wr : Bool) (off : Offset) (d : Word) (m : Hop)
    (he : encode i = some (mkHop wr off d)) (ht : tableRow i = some (m, 0x1FF00000000#41))
    (hm : mkHop wr off 0#32 = m) : EncodingMatchesTable.Statement i := by
  intro w m' k hw hr
  rw [he] at hw; rw [ht] at hr
  cases hw; cases hr
  rw [mkHop_and_rowMask, hm]

theorem EncodingMatchesTable.rdId : EncodingMatchesTable.Statement .rdId :=
  encodingMatchesTable_of_masked _ false 0x00#8 0#32 _ rfl rfl (by decide)

theorem EncodingMatchesTable.rdCtrl : EncodingMatchesTable.Statement .rdCtrl :=
  encodingMatchesTable_of_masked _ false 0x04#8 0#32 _ rfl rfl (by decide)

theorem EncodingMatchesTable.rdSeed : EncodingMatchesTable.Statement .rdSeed :=
  encodingMatchesTable_of_masked _ false 0x08#8 0#32 _ rfl rfl (by decide)

theorem EncodingMatchesTable.rdSymPeriod : EncodingMatchesTable.Statement .rdSymPeriod :=
  encodingMatchesTable_of_masked _ false 0x0C#8 0#32 _ rfl rfl (by decide)

theorem EncodingMatchesTable.rdSampPeriod : EncodingMatchesTable.Statement .rdSampPeriod :=
  encodingMatchesTable_of_masked _ false 0x10#8 0#32 _ rfl rfl (by decide)

theorem EncodingMatchesTable.rdDepth : EncodingMatchesTable.Statement .rdDepth :=
  encodingMatchesTable_of_masked _ false 0x14#8 0#32 _ rfl rfl (by decide)

theorem EncodingMatchesTable.rdAmplitude : EncodingMatchesTable.Statement .rdAmplitude :=
  encodingMatchesTable_of_masked _ false 0x18#8 0#32 _ rfl rfl (by decide)

theorem EncodingMatchesTable.rdCmd : EncodingMatchesTable.Statement .rdCmd :=
  encodingMatchesTable_of_masked _ false 0x1C#8 0#32 _ rfl rfl (by decide)

theorem EncodingMatchesTable.rdStatus : EncodingMatchesTable.Statement .rdStatus :=
  encodingMatchesTable_of_masked _ false 0x20#8 0#32 _ rfl rfl (by decide)

theorem EncodingMatchesTable.rdSampleCount : EncodingMatchesTable.Statement .rdSampleCount :=
  encodingMatchesTable_of_masked _ false 0x24#8 0#32 _ rfl rfl (by decide)

theorem EncodingMatchesTable.rdAcc : EncodingMatchesTable.Statement .rdAcc :=
  encodingMatchesTable_of_masked _ false 0x28#8 0#32 _ rfl rfl (by decide)

theorem EncodingMatchesTable.rdLfsr : EncodingMatchesTable.Statement .rdLfsr :=
  encodingMatchesTable_of_masked _ false 0x2C#8 0#32 _ rfl rfl (by decide)

theorem EncodingMatchesTable.rdPstate : EncodingMatchesTable.Statement .rdPstate :=
  encodingMatchesTable_of_masked _ false 0x30#8 0#32 _ rfl rfl (by decide)

theorem EncodingMatchesTable.wrCtrl (v : Word) : EncodingMatchesTable.Statement (.wrCtrl v) :=
  encodingMatchesTable_of_masked _ true 0x04#8 v _ rfl rfl (by decide)

theorem EncodingMatchesTable.wrSeed (v : Word) : EncodingMatchesTable.Statement (.wrSeed v) :=
  encodingMatchesTable_of_masked _ true 0x08#8 v _ rfl rfl (by decide)

theorem EncodingMatchesTable.wrSymPeriod (v : Word) : EncodingMatchesTable.Statement (.wrSymPeriod v) :=
  encodingMatchesTable_of_masked _ true 0x0C#8 v _ rfl rfl (by decide)

theorem EncodingMatchesTable.wrSampPeriod (v : Word) : EncodingMatchesTable.Statement (.wrSampPeriod v) :=
  encodingMatchesTable_of_masked _ true 0x10#8 v _ rfl rfl (by decide)

theorem EncodingMatchesTable.wrDepth (v : Word) : EncodingMatchesTable.Statement (.wrDepth v) :=
  encodingMatchesTable_of_masked _ true 0x14#8 v _ rfl rfl (by decide)

theorem EncodingMatchesTable.wrAmplitude (v : Word) : EncodingMatchesTable.Statement (.wrAmplitude v) :=
  encodingMatchesTable_of_masked _ true 0x18#8 v _ rfl rfl (by decide)

theorem EncodingMatchesTable.wrStatus (v : Word) : EncodingMatchesTable.Statement (.wrStatus v) :=
  encodingMatchesTable_of_masked _ true 0x20#8 v _ rfl rfl (by decide)

theorem EncodingMatchesTable.wrId (v : Word) : EncodingMatchesTable.Statement (.wrId v) :=
  encodingMatchesTable_of_masked _ true 0x00#8 v _ rfl rfl (by decide)

theorem EncodingMatchesTable.wrSampleCount (v : Word) : EncodingMatchesTable.Statement (.wrSampleCount v) :=
  encodingMatchesTable_of_masked _ true 0x24#8 v _ rfl rfl (by decide)

theorem EncodingMatchesTable.wrAcc (v : Word) : EncodingMatchesTable.Statement (.wrAcc v) :=
  encodingMatchesTable_of_masked _ true 0x28#8 v _ rfl rfl (by decide)

theorem EncodingMatchesTable.wrLfsr (v : Word) : EncodingMatchesTable.Statement (.wrLfsr v) :=
  encodingMatchesTable_of_masked _ true 0x2C#8 v _ rfl rfl (by decide)

theorem EncodingMatchesTable.wrPstate (v : Word) : EncodingMatchesTable.Statement (.wrPstate v) :=
  encodingMatchesTable_of_masked _ true 0x30#8 v _ rfl rfl (by decide)

theorem EncodingMatchesTable.cmdNop : EncodingMatchesTable.Statement .cmdNop := by
  intro w m k hw hr; cases hw; cases hr; decide

theorem EncodingMatchesTable.cmdStart : EncodingMatchesTable.Statement .cmdStart := by
  intro w m k hw hr; cases hw; cases hr; decide

theorem EncodingMatchesTable.cmdAbort : EncodingMatchesTable.Statement .cmdAbort := by
  intro w m k hw hr; cases hw; cases hr; decide

theorem EncodingMatchesTable.cmdSoftReset : EncodingMatchesTable.Statement .cmdSoftReset := by
  intro w m k hw hr; cases hw; cases hr; decide

theorem EncodingMatchesTable.cmdIllegal (v : Word) : EncodingMatchesTable.Statement (.cmdIllegal v) := by
  intro w m k _ hr; cases hr

theorem EncodingMatchesTable.badAccessMisaligned (off : Offset) (acc : Access) :
    EncodingMatchesTable.Statement (.badAccessMisaligned off acc) := by
  intro w m k _ hr; cases hr

theorem EncodingMatchesTable.badAccessUnmapped (off : Offset) (acc : Access) :
    EncodingMatchesTable.Statement (.badAccessUnmapped off acc) := by
  intro w m k _ hr; cases hr

theorem EncodingMatchesTable.engineStep : EncodingMatchesTable.Statement .engineStep := by
  intro w m k _ hr; cases hr

theorem EncodingMatchesTable.advPrbs31 : EncodingMatchesTable.Statement .advPrbs31 := by
  intro w m k _ hr; cases hr

theorem EncodingMatchesTable.advFixed20 : EncodingMatchesTable.Statement .advFixed20 := by
  intro w m k _ hr; cases hr

theorem EncodingMatchesTable.reset : EncodingMatchesTable.Statement .reset := by
  intro w m k _ hr; cases hr

end Sys2Proof.Laws
end

