-- ==== Sys2Proof/Laws/Phase.lean ====
section
/-! SUPPORT. The arithmetic of the phase law (43_sample_synthesis.md R155): the advances of one step
take `K(n)` to `K(n+1)` and the ideal accumulator to the next one. -/

namespace Sys2Proof.Safety

open Sys2Proof.Machine

/-- `K(n) + 1` symbol periods reach at least to the end of sample `n` (43_sample_synthesis.md
R155). -/
theorem le_advancesIn (n samp sym : Nat) (hm : 0 < sym) : n * samp ≤ (advancesIn n samp sym + 1) * sym := by
  unfold advancesIn
  split_ifs with h0
  · subst h0; simp
  · have h := (ceilDiv_bounds (n * samp) sym hm).1
    rcases Nat.eq_zero_or_pos ((n * samp + sym - 1) / sym) with hq | hq
    · rw [hq] at h
      omega
    · rwa [Nat.sub_add_cancel hq]

/-- `K(n)` symbol periods end before sample `n` does (43_sample_synthesis.md R155). -/
theorem advancesIn_lt (n samp sym : Nat) (hn : 0 < n) (hs : 0 < samp) (hm : 0 < sym) :
    advancesIn n samp sym * sym < n * samp := by
  unfold advancesIn
  rw [if_neg (by omega)]
  have hp : 0 < n * samp := Nat.mul_pos hn hs
  have h := (ceilDiv_bounds (n * samp) sym hm).2 hp
  rw [Nat.sub_mul]
  omega

/-- The two bounds determine `K(n)`. -/
theorem advancesIn_unique (n samp sym q : Nat) (hn : 0 < n) (hs : 0 < samp) (hm : 0 < sym)
    (h1 : n * samp ≤ (q + 1) * sym) (h2 : q * sym < n * samp) : advancesIn n samp sym = q := by
  have a := le_advancesIn n samp sym hm
  have b := advancesIn_lt n samp sym hn hs hm
  have c : advancesIn n samp sym < q + 1 := Nat.lt_of_mul_lt_mul_right (lt_of_lt_of_le b h1)
  have d : q < advancesIn n samp sym + 1 := Nat.lt_of_mul_lt_mul_right (lt_of_lt_of_le h2 a)
  omega

/-- The ideal accumulator is never below zero. -/
theorem idealAcc_nonneg (n samp sym : Nat) (hm : 0 < sym) : 0 ≤ idealAcc n samp sym := by
  have h := le_advancesIn n samp sym hm
  unfold idealAcc
  zify at h
  omega

/-- From the ideal accumulator after `n` steps, one step makes the advances that take `K(n)` to
`K(n+1)` (43_sample_synthesis.md R155). -/
theorem advancesIn_succ (n samp sym pre : Nat) (hs : 0 < samp) (hm : 0 < sym)
    (hp : (pre : Int) = idealAcc n samp sym) :
    advancesIn (n + 1) samp sym = advancesIn n samp sym + advanceCount pre samp sym := by
  have h1 := accAfter_nonneg pre samp sym (.inl hm)
  unfold idealAcc at hp
  unfold accAfter at h1
  apply advancesIn_unique _ _ _ _ (by omega) hs hm
  · zify
    nlinarith
  · rcases Nat.eq_zero_or_pos (advanceCount pre samp sym) with h0 | h0
    · rw [h0, Nat.add_zero]
      rcases Nat.eq_zero_or_pos n with hn | hn
      · subst hn; simp [advancesIn, hs]
      · have := advancesIn_lt n samp sym hn hs hm
        rw [Nat.add_mul]
        omega
    · have h2 := accAfter_neg_of_lt pre samp sym (advanceCount pre samp sym - 1) hm (by omega)
      unfold accAfter at h2
      rw [Nat.cast_sub h0] at h2
      zify
      push_cast at h2
      nlinarith

/-- One step takes the ideal accumulator after `n` steps to that after `n + 1`
(43_sample_synthesis.md R155). -/
theorem accAfter_idealAcc (n samp sym pre : Nat) (hs : 0 < samp) (hm : 0 < sym)
    (hp : (pre : Int) = idealAcc n samp sym) :
    accAfter pre samp sym (advanceCount pre samp sym) = idealAcc (n + 1) samp sym := by
  have h := advancesIn_succ n samp sym pre hs hm hp
  unfold accAfter
  unfold idealAcc at hp ⊢
  rw [h, hp]
  push_cast
  ring

/-- The level of the literal at an index below 20 is the bit of the word `0xA257C`
(42_pattern_sources.md R130). -/
theorem pat_eq_literal (idx : BitVec 5) (h : idx.toNat < 20) :
    pat idx = fixed20Literal.getD idx.toNat false := by
  have key : ∀ j : Fin 20, patWord.getLsbD j.val = fixed20Literal.getD j.val false := by decide
  exact key ⟨idx.toNat, h⟩

end Sys2Proof.Safety
end

