-- ==== Sys2Proof/Tests/Slice0.lean ====
section
/-! SUPPORT. Tests on fixed values, each expected value taken from spec/ (the section is named in the
test's comment), and for every statement with hypotheses a state and operands that meet them. -/

namespace Sys2Proof.Tests

open Sys2Proof.Machine Sys2Proof.Safety Sys2Proof.Asm

/-! ## WellFormed -/

/-- The word 3 is SOFT_RESET, no illegal command (30_encoding.md R75). -/
theorem test_wf_refuses_a_command_word : WellFormed (.cmdIllegal 3#32) = false := by decide

/-- An aligned offset is no misaligned access (20_memory.md R53). -/
theorem test_wf_refuses_an_aligned_offset :
    WellFormed (.badAccessMisaligned 0x04#8 .read) = false := by decide

/-- `0x30` is mapped (10_state.md R39), and `0x35` is misaligned first (30_encoding.md R71). -/
theorem test_wf_refuses_a_mapped_or_misaligned_offset :
    WellFormed (.badAccessUnmapped 0x30#8 .read) = false ∧
    WellFormed (.badAccessUnmapped 0x35#8 (.write 1#32)) = false := by decide

theorem test_wf_accepts_the_illegal_classes :
    WellFormed (.cmdIllegal 4#32) = true ∧ WellFormed (.badAccessMisaligned 0x01#8 .read) = true ∧
    WellFormed (.badAccessUnmapped 0x34#8 .read) = true := by decide

/-! ## Decoding: words written out bit by bit as `WR`, `OFF`, `WDATA` from 30_encoding.md R70 and the
offsets of 10_state.md, section 3 -/

theorem test_decode_reads :
    decode 0b0_00000000_00000000000000000000000000000000#41 = .rdId ∧
    decode 0b0_00000100_00000000000000000000000000000000#41 = .rdCtrl ∧
    decode 0b0_00001000_00000000000000000000000000000000#41 = .rdSeed ∧
    decode 0b0_00001100_00000000000000000000000000000000#41 = .rdSymPeriod ∧
    decode 0b0_00010000_00000000000000000000000000000000#41 = .rdSampPeriod ∧
    decode 0b0_00010100_00000000000000000000000000000000#41 = .rdDepth ∧
    decode 0b0_00011000_00000000000000000000000000000000#41 = .rdAmplitude ∧
    decode 0b0_00011100_00000000000000000000000000000000#41 = .rdCmd ∧
    decode 0b0_00100000_00000000000000000000000000000000#41 = .rdStatus ∧
    decode 0b0_00100100_00000000000000000000000000000000#41 = .rdSampleCount ∧
    decode 0b0_00101000_00000000000000000000000000000000#41 = .rdAcc ∧
    decode 0b0_00101100_00000000000000000000000000000000#41 = .rdLfsr ∧
    decode 0b0_00110000_00000000000000000000000000000000#41 = .rdPstate := by decide

/-- "A read ignores its data word" (95_test_vectors.md V-R1). -/
theorem test_decode_read_ignores_data :
    decode 0b0_00000000_11111111111111111111111111111111#41 = .rdId := by decide

/-- The words of 95_test_vectors.md V-R2, V-R3, V-R5, P1 and P2. -/
theorem test_decode_writes :
    decode 0b1_00000100_00000000000000000000000000000011#41 = .wrCtrl 3#32 ∧
    decode 0b1_00001000_01000000000000000000000000000000#41 = .wrSeed 0x40000000#32 ∧
    decode 0b1_00001100_00000000000000000000000000001010#41 = .wrSymPeriod 10#32 ∧
    decode 0b1_00010000_00000000000000000000000000000100#41 = .wrSampPeriod 4#32 ∧
    decode 0b1_00010100_00000000000000000000000000001100#41 = .wrDepth 12#32 ∧
    decode 0b1_00011000_00000000000000000000001111101000#41 = .wrAmplitude 1000#32 ∧
    decode 0b1_00100000_00000000000000000000000000001110#41 = .wrStatus 14#32 := by decide

/-- The words of 95_test_vectors.md V-R6. -/
theorem test_decode_read_only_writes :
    decode 0b1_00000000_00000000000000000000000000000000#41 = .wrId 0#32 ∧
    decode 0b1_00100100_00000000000000000000000000000101#41 = .wrSampleCount 5#32 ∧
    decode 0b1_00101000_00000000000000000000000000000101#41 = .wrAcc 5#32 ∧
    decode 0b1_00101100_00000000000000000000000000000101#41 = .wrLfsr 5#32 ∧
    decode 0b1_00110000_00000000000000000000000000000101#41 = .wrPstate 5#32 := by decide

/-- The words of 30_encoding.md R75 and of 95_test_vectors.md V-C10. -/
theorem test_decode_commands :
    decode 0b1_00011100_00000000000000000000000000000000#41 = .cmdNop ∧
    decode 0b1_00011100_00000000000000000000000000000001#41 = .cmdStart ∧
    decode 0b1_00011100_00000000000000000000000000000010#41 = .cmdAbort ∧
    decode 0b1_00011100_00000000000000000000000000000011#41 = .cmdSoftReset ∧
    decode 0b1_00011100_00000000000000000000000000000100#41 = .cmdIllegal 4#32 ∧
    decode 0b1_00011100_00000000000000000000000000010001#41 = .cmdIllegal 17#32 ∧
    decode 0b1_00011100_10000000000000000000000000000010#41 = .cmdIllegal 0x80000002#32 := by
  decide

/-- The words of 95_test_vectors.md V-R7 and V-R8. -/
theorem test_decode_bad_accesses :
    decode 0b0_00110100_00000000000000000000000000000000#41 = .badAccessUnmapped 0x34#8 .read ∧
    decode 0b0_11111100_00000000000000000000000000000000#41 = .badAccessUnmapped 0xFC#8 .read ∧
    decode 0b1_01000000_00000000000000000000000000000001#41 =
      .badAccessUnmapped 0x40#8 (.write 1#32) ∧
    decode 0b0_00000001_00000000000000000000000000000000#41 = .badAccessMisaligned 0x01#8 .read ∧
    decode 0b1_00011101_00000000000000000000000000000001#41 =
      .badAccessMisaligned 0x1D#8 (.write 1#32) ∧
    decode 0b1_11111111_00000000000000000000000000000000#41 =
      .badAccessMisaligned 0xFF#8 (.write 0#32) := by decide

/-- A table word has 41 bits: the last `HOP` decodes, the next number is none (30_encoding.md
R70). -/
theorem test_decode_table_word_range :
    decodeTableWord 48 (2 ^ 41 - 1) = some (.badAccessMisaligned 0xFF#8 (.write 0xFFFFFFFF#32)) ∧
    decodeTableWord 48 (2 ^ 41) = none := by decide

/-! ## One step -/

/-- A next state with a property. -/
def nextWith (o : Host.Outcome State Fault Refusal) (p : State → Bool) : Bool :=
  match o with
  | .next t => p t
  | _ => false

/-- The configuration of 95_test_vectors.md V-C3. -/
def configured : State :=
  { State.reset with
    psel := .fixed20, symPeriod := 4#32, sampPeriod := 1#32, depth := 12#32, amplitude := 2#16 }

/-- A run of 95_test_vectors.md section 2.4 right after its START, with the accumulator, the index,
the level and the count of one row of its table. -/
def inRun (t s a n : Nat) (acc idx : Nat) (lvl : Bool) (count : Nat) : State :=
  { beginRun { configured with
      symPeriod := BitVec.ofNat 32 t, sampPeriod := BitVec.ofNat 32 s,
      depth := BitVec.ofNat 32 n, amplitude := BitVec.ofNat 16 a } with
    acc := BitVec.ofNat 32 acc, idx := BitVec.ofNat 5 idx, lvl := lvl,
    sampleCount := BitVec.ofNat 32 count }

/-- A PRBS31 run right after its START. -/
def prbsRun (t s a n seed : Nat) : State :=
  beginRun { configured with
    psel := .prbs31, seed := BitVec.ofNat 31 seed, symPeriod := BitVec.ofNat 32 t,
    sampPeriod := BitVec.ofNat 32 s, depth := BitVec.ofNat 32 n, amplitude := BitVec.ofNat 16 a }

/-- 95_test_vectors.md V-R1. -/
theorem test_reset_reads :
    nextWith (exec .rdId State.reset) (fun t => t.reads == [0x42505331#32]) = true ∧
    nextWith (exec .rdSeed State.reset) (fun t => t.reads == [0x7FFFFFFF#32]) = true ∧
    nextWith (exec .rdLfsr State.reset) (fun t => t.reads == [0#32]) = true ∧
    nextWith (exec .rdCmd State.reset) (fun t => t.reads == [0#32]) = true := by decide

/-- 40_register_access.md R103's example, and 95_test_vectors.md V-S8's end state. -/
theorem test_read_pstate :
    nextWith (exec .rdPstate (inRun 4 1 2 12 0 2 true 9)) (fun t => t.reads == [0x102#32]) = true ∧
    nextWith (exec .rdPstate (inRun 1 3 100 9 0 14 false 5)) (fun t => t.reads == [0xE#32]) = true := by
  decide

/-- 40_register_access.md R94 to R97, R100, R101: the examples. -/
theorem test_read_numbers :
    nextWith (exec .rdSymPeriod configured) (fun t => t.reads == [4#32]) = true ∧
    nextWith (exec .rdSampPeriod configured) (fun t => t.reads == [1#32]) = true ∧
    nextWith (exec .rdDepth configured) (fun t => t.reads == [12#32]) = true ∧
    nextWith (exec .rdAmplitude { State.reset with amplitude := 0x2345#16 })
      (fun t => t.reads == [0x2345#32]) = true ∧
    nextWith (exec .rdSampleCount (inRun 4 1 2 12 4 0 false 12)) (fun t => t.reads == [12#32]) = true ∧
    nextWith (exec .rdAcc (inRun 4 1 2 12 1 0 false 3)) (fun t => t.reads == [1#32]) = true := by
  decide

/-- 95_test_vectors.md V-R2. -/
theorem test_write_ctrl :
    nextWith (exec (.wrCtrl 0xFFFFFFFF#32) State.reset) (fun t => ctrlWord t == 7#32) = true ∧
    nextWith (exec (.wrCtrl 0xFFFFFFFC#32) State.reset) (fun t => ctrlWord t == 4#32) = true := by
  decide

/-- 95_test_vectors.md V-R2. -/
theorem test_write_seed :
    nextWith (exec (.wrSeed 0xFFFFFFFF#32) State.reset) (fun t => seedWord t == 0x7FFFFFFF#32) = true ∧
    nextWith (exec (.wrSeed 0x80000000#32) State.reset) (fun t => seedWord t == 0#32) = true := by
  decide

/-- 95_test_vectors.md V-R2. -/
theorem test_write_amplitude :
    nextWith (exec (.wrAmplitude 0x12345#32) State.reset)
      (fun t => amplitudeWord t == 0x2345#32) = true := by decide

/-- 95_test_vectors.md V-R3. -/
theorem test_write_full_width :
    nextWith (exec (.wrSymPeriod 0xFFFFFFFF#32) State.reset)
      (fun t => t.symPeriod == 0xFFFFFFFF#32 && t.sampPeriod == 0#32) = true ∧
    nextWith (exec (.wrSampPeriod 0xFFFFFFFF#32) State.reset)
      (fun t => t.sampPeriod == 0xFFFFFFFF#32 && t.symPeriod == 0#32) = true ∧
    nextWith (exec (.wrDepth 0xFFFFFFFF#32) State.reset)
      (fun t => t.depth == 0xFFFFFFFF#32) = true := by decide

/-- A state with `STATUS = 0x00000606`. -/
def status606 : State := { State.reset with done := true, err := true, errcode := 6#4 }

/-- A state with `STATUS = 0x0000040C`. -/
def status40C : State := { State.reset with err := true, aborted := true, errcode := 4#4 }

/-- 95_test_vectors.md V-R5, first rows. -/
theorem test_write_status_clears :
    nextWith (exec (.wrStatus 4#32) status606) (fun t => statusWord t == 0x2#32) = true ∧
    nextWith (exec (.wrStatus 2#32) status606) (fun t => statusWord t == 0x604#32) = true ∧
    nextWith (exec (.wrStatus 8#32) status40C) (fun t => statusWord t == 0x404#32) = true := by
  decide

/-- 95_test_vectors.md V-R5, the rows of dropped bits. -/
theorem test_write_status_drops :
    nextWith (exec (.wrStatus 0xF00#32) status40C) (fun t => statusWord t == 0x40C#32) = true ∧
    nextWith (exec (.wrStatus 0xFFFFFFFF#32) (beginRun configured))
      (fun t => statusWord t == 0x1#32) = true := by decide

/-- 95_test_vectors.md V-R6. -/
theorem test_write_read_only :
    nextWith (exec (.wrId 0#32) State.reset) (fun t => statusWord t == 0x604#32) = true ∧
    nextWith (exec (.wrSampleCount 5#32) State.reset)
      (fun t => statusWord t == 0x604#32 && t.sampleCount == 0#32) = true ∧
    nextWith (exec (.wrAcc 5#32) State.reset)
      (fun t => statusWord t == 0x604#32 && t.acc == 0#32) = true ∧
    nextWith (exec (.wrLfsr 5#32) State.reset)
      (fun t => statusWord t == 0x604#32 && t.lfsr == 0#31) = true ∧
    nextWith (exec (.wrPstate 5#32) State.reset)
      (fun t => statusWord t == 0x604#32 && t.idx == 0#5) = true := by decide

/-- 95_test_vectors.md V-R9: the first error is kept. -/
theorem test_first_error_kept :
    nextWith (exec (.wrId 0#32) { State.reset with err := true, errcode := 1#4 })
      (fun t => statusWord t == 0x104#32) = true := by decide

/-- 95_test_vectors.md V-R7 and V-R8. -/
theorem test_bad_accesses :
    nextWith (exec (.badAccessUnmapped 0x34#8 .read) State.reset)
      (fun t => statusWord t == 0x604#32 && t.reads == [0#32]) = true ∧
    nextWith (exec (.badAccessMisaligned 0x1D#8 (.write 1#32)) State.reset)
      (fun t => statusWord t == 0x604#32 && t.reads == []) = true := by decide

/-- 95_test_vectors.md V-C2, rows 1, 3, 5 and 6. -/
theorem test_start_checks :
    nextWith (exec .cmdStart State.reset) (fun t => statusWord t == 0x104#32) = true ∧
    nextWith (exec .cmdStart { State.reset with sampPeriod := 1#32 })
      (fun t => statusWord t == 0x204#32) = true ∧
    nextWith (exec .cmdStart { State.reset with sampPeriod := 1#32, symPeriod := 4#32 })
      (fun t => statusWord t == 0x304#32) = true ∧
    nextWith (exec .cmdStart configured) (fun t => statusWord t == 0x1#32 && t.acc == 4#32 &&
      t.lfsr == 0x7FFFFFFF#31 && t.wDepth == 12#32 && t.wPsel == .fixed20) = true := by decide

/-- 95_test_vectors.md V-C6. -/
theorem test_start_while_busy :
    nextWith (exec .cmdStart { beginRun configured with ieErr := true, sampPeriod := 0#32 })
      (fun t => statusWord t == 0x505#32 && irq t && t.acc == 4#32) = true := by decide

/-- 95_test_vectors.md V-C8. -/
theorem test_abort :
    nextWith (exec .cmdAbort (inRun 4 1 2 12 3 1 false 5))
      (fun t => statusWord t == 0x8#32 && t.sampleCount == 5#32 && t.acc == 3#32) = true ∧
    nextWith (exec .cmdAbort { State.reset with aborted := true })
      (fun t => statusWord t == 0x8#32) = true := by decide

/-- 95_test_vectors.md V-C7 and V-C9. -/
theorem test_nop_and_soft_reset :
    nextWith (exec .cmdNop (beginRun configured)) (fun t => t == beginRun configured) = true ∧
    nextWith (exec .cmdSoftReset (beginRun configured)) (fun t => t == State.reset) = true := by
  decide

/-- 95_test_vectors.md V-C10. -/
theorem test_illegal_command :
    nextWith (exec (.cmdIllegal 17#32) State.reset) (fun t => statusWord t == 0x404#32) = true := by
  decide

/-- 95_test_vectors.md V-P3, advances 3 and 6. -/
theorem test_adv_prbs31 :
    nextWith (exec .advPrbs31 { State.reset with lfsr := 0x48D159E0#31 })
      (fun t => t.lfsr == 0x11A2B3C0#31 && !t.lvl) = true ∧
    nextWith (exec .advPrbs31 { State.reset with lfsr := 0x468ACF00#31 })
      (fun t => t.lfsr == 0x0D159E01#31 && t.lvl) = true := by decide

/-- 95_test_vectors.md V-P5. -/
theorem test_adv_fixed20 :
    nextWith (exec .advFixed20 { State.reset with idx := 1#5 })
      (fun t => t.idx == 2#5 && t.lvl) = true ∧
    nextWith (exec .advFixed20 { State.reset with idx := 19#5, lvl := true })
      (fun t => t.idx == 0#5 && !t.lvl) = true := by decide

/-- 95_test_vectors.md V-S6, step 8: a falling edge, the tie `+1/2` goes to `+1`; V-S8, step 0: two
advances in one sample. -/
theorem test_engine_step_edges :
    nextWith (exec .engineStep (inRun 5 4 2 12 3 6 true 8))
      (fun t => t.out == [⟨1#32, false⟩] && t.idx == 7#5 && !t.lvl && t.acc == 4#32) = true ∧
    nextWith (exec .engineStep (inRun 1 3 100 5 1 0 false 0))
      (fun t => t.out == [⟨17#32, false⟩] && t.idx == 2#5 && t.lvl && t.acc == 0#32) = true := by
  decide

/-- 95_test_vectors.md V-S14: the last step; V-S15, step 0: 4294967294 advances. -/
theorem test_engine_step_ends :
    nextWith (exec .engineStep (inRun 4 4 2 1 4 0 false 0))
      (fun t => t.out == [⟨0xFFFFFFFF#32, true⟩] && statusWord t == 0x2#32) = true ∧
    nextWith (exec .engineStep (inRun 1 0xFFFFFFFF 65535 3 1 0 false 0))
      (fun t => t.out == [⟨0xFFFF8000#32, false⟩] && t.idx == 14#5 && !t.lvl) = true := by decide

/-- 95_test_vectors.md V-S2, step 2, reached in three steps' accumulator: a PRBS31 rising edge at
mid-sample. -/
theorem test_engine_step_prbs :
    nextWith (exec .engineStep { prbsRun 10 4 1000 8 0x40000000 with acc := 2#32 })
      (fun t => t.out == [⟨0#32, false⟩] && t.lfsr == 1#31 && t.lvl && t.acc == 8#32) = true := by
  decide +kernel

/-- 95_test_vectors.md V-P7: 39 advances from the reset seed at once. -/
theorem test_prbs_jump : prbsJump 39 0x7FFFFFFF#31 = 0x700#31 := by decide +kernel

/-- 95_test_vectors.md V-X1. -/
theorem test_hardware_reset :
    nextWith (exec .reset { beginRun configured with out := [⟨0xFFFFFFFF#32, false⟩] })
      (fun t => t == { State.reset with out := [⟨0xFFFFFFFF#32, false⟩] }) = true := by decide

/-- 95_test_vectors.md V-E3. -/
theorem test_irq :
    irq status606 = false ∧ irq { status606 with ieDone := true } = true ∧
    irq { State.reset with err := true, errcode := 6#4, ieDone := true } = false ∧
    irq { State.reset with err := true, errcode := 6#4, ieErr := true } = true ∧
    irq { State.reset with aborted := true, ieDone := true, ieErr := true } = false := by decide

/-- 43_sample_synthesis.md R147 and 95_test_vectors.md V-S5, V-S11. -/
theorem test_rha :
    rha 2 2 = 1 ∧ rha 3 2 = 2 ∧ rha 65535 2 = 32768 ∧ rha 4 8 = 1 ∧ rha (-4) 8 = -1 ∧
    rha (-2) 6 = 0 ∧ rha 9029 2 = 4515 := by decide

/-- 30_encoding.md R79, and 40_register_access.md R104's example. -/
theorem test_assemble :
    assemble (.wr (.reg .ctrl) (.fields [(.psel, 1), (.ieDone, 1)])) = some 0x10400000003#41 ∧
    assemble (.wr (.raw 0x1D#8) (.value 1)) = some 0x11D00000001#41 ∧
    assemble (.wr (.reg .ctrl) (.fields [(.psel, 2)])) = none := by decide

/-- 20_memory.md R52: byte 0 is the least significant. -/
theorem test_byte_lanes : byteLane idValue 0 = 0x31#8 ∧ byteLane idValue 3 = 0x42#8 := by decide

/-! ## Witnesses: for each statement with hypotheses, values that meet them together; for one with
several clauses, values at the edges of each clause -/

/-- The run of 95_test_vectors.md V-C3, right after its START. -/
def running : State := beginRun configured

/-- The run of 95_test_vectors.md V-S14 before its only step, `ACC = S`. -/
def lastStep : State := inRun 4 4 2 1 4 0 false 0

theorem running_inv : Inv running where
  errRecord := by unfold ErrRecordOk; decide
  flags := by unfold FlagsOk; decide
  idx := by unfold IdxOk; decide
  working := by unfold WorkingCopiesOk; decide
  count := by unfold CountOk; decide
  acc := by unfold AccOk; decide
  out := by intro t ht; exact absurd ht (by simp [running, configured, State.reset])
  run := ⟨[], ⟨[], rfl⟩, rfl, by simp⟩

theorem lastStep_inv : Inv lastStep where
  errRecord := by unfold ErrRecordOk; decide
  flags := by unfold FlagsOk; decide
  idx := by unfold IdxOk; decide
  working := by unfold WorkingCopiesOk; decide
  count := by unfold CountOk; decide
  acc := by unfold AccOk; decide
  out := by intro t ht; exact absurd ht (by simp [lastStep, inRun, configured, State.reset])
  run := ⟨[], ⟨[], rfl⟩, rfl, by simp⟩

theorem running_phase : PhaseOk running := by
  intro _
  decide

/-- The schedule of a state takes no part in the invariant. -/
theorem inv_with_schedule (s : State) (l : List Action) (h : Inv s) :
    Inv { s with schedule := l } :=
  ⟨h.errRecord, h.flags, h.idx, h.working, h.count, h.acc, h.out, h.run⟩

theorem witness_DecodeOfEncode :
    (WellFormed (.wrSeed 5#32) = true ∧ encode (.wrSeed 5#32) = some 0x10800000005#41) ∧
    (WellFormed (.cmdIllegal 4#32) = true ∧ encode (.cmdIllegal 4#32) = some 0x11C00000004#41) ∧
    (WellFormed (.badAccessUnmapped 0xFC#8 .read) = true ∧
      encode (.badAccessUnmapped 0xFC#8 .read) = some 0x0FC00000000#41) := by decide

theorem witness_DecodeFollowsTheOrderedLines :
    (hopOff 0x13500000000#41).extractLsb' 0 2 ≠ 0#2 ∧
    ((hopOff 0x03400000000#41).extractLsb' 0 2 = 0#2 ∧ 0x30#8 < hopOff 0x03400000000#41) ∧
    (hopOff 0x03000000000#41 = regOffset .pstate ∧ hopWr 0x03000000000#41 = false) ∧
    (hopOff 0x13000000000#41 = regOffset .pstate ∧ hopWr 0x13000000000#41 = true) ∧
    (hopOff 0x11C00000003#41 = 0x1C#8 ∧ hopWr 0x11C00000003#41 = true) ∧
    ((hopOff 0x13000000000#41).extractLsb' 0 2 = 0#2 ∧ hopOff 0x13000000000#41 ≤ 0x30#8) := by
  decide

theorem witness_OnlyFourWordsAreCommands :
    (hopWr 0x11C00000003#41 = true ∧ hopOff 0x11C00000003#41 = 0x1C#8 ∧
      hopData 0x11C00000003#41 = 3#32) ∧
    (hopWr 0x11C00000004#41 = true ∧ hopOff 0x11C00000004#41 = 0x1C#8 ∧
      4 ≤ (hopData 0x11C00000004#41).toNat) := by decide

theorem witness_TableRowsAreTheDecoder_row :
    tableRow (decode 0x000FFFFFFFF#41) = some (0x00000000000#41, 0x1FF00000000#41) ∧
    tableRow .cmdStart = some (0x11C00000001#41, 0x1FFFFFFFFFF#41) ∧
    0x11C00000001#41 &&& 0x1FFFFFFFFFF#41 = 0x11C00000001#41 := by decide

theorem witness_TableRowsAreTheDecoder_none (i : Instr) (m k : Hop) (h : tableRow i = some (m, k)) :
    0x11C00000004#41 &&& k ≠ m := by
  cases i <;> cases h <;> decide

theorem witness_WindowIsTheAddressSpace :
    (Config.base ≤ Config.base ∧ Config.base < Config.base + 256) ∧
    (Config.base ≤ Config.base + 255 ∧ Config.base + 255 < Config.base + 256) ∧
    Config.base + 256 ≤ Config.base + 256 := by omega

theorem witness_StatementsAssemble :
    2 ^ 32 - 1 < 2 ^ 32 ∧ fieldBits .amplitude .ampl = some (0, 16) ∧ 65535 < 2 ^ 16 ∧
    2 ^ 16 ≤ 65536 ∧ fieldBits .status .aborted = some (3, 1) ∧ 1 < 2 ^ 1 ∧
    assemble (.wr (.reg .status) (.fields [(.done, 1)])) =
      some (mkHop true (regOffset .status) 2#32) := by decide

theorem witness_StepPerformsTheNextAction :
    State.reset.schedule = [] ∧
    ({ running with schedule := [.host startHop] } : State).schedule = [.host startHop] ∧
    ({ running with schedule := [.engine] } : State).schedule = [.engine] ∧
    ({ running with schedule := [.reset] } : State).schedule = [.reset] := by decide

theorem witness_TableWordRunsNext : (2 ^ 41 - 1) % 2 ^ 41 < 2 ^ 41 ∧ 0 % 2 ^ 41 < 2 ^ 41 := by
  decide

theorem witness_StartLatchesOrRefuses :
    running.busy = true ∧
    (State.reset.busy = false ∧ State.reset.sampPeriod = 0#32) ∧
    (let s : State := { State.reset with sampPeriod := 1#32 };
      s.busy = false ∧ s.sampPeriod ≠ 0#32 ∧ s.symPeriod = 0#32) ∧
    (let s : State := { State.reset with sampPeriod := 1#32, symPeriod := 0xFFFFFFFF#32 };
      s.busy = false ∧ s.sampPeriod ≠ 0#32 ∧ s.symPeriod ≠ 0#32 ∧ s.depth = 0#32) ∧
    (configured.busy = false ∧ configured.sampPeriod ≠ 0#32 ∧ configured.symPeriod ≠ 0#32 ∧
      configured.depth ≠ 0#32) := by decide

theorem witness_AbortStopsTheRun :
    running.busy = true ∧ Inv running ∧ configured.busy = false :=
  ⟨by decide, running_inv, by decide⟩

theorem witness_BadOffsetsRecordBadAccess :
    (0x35#8 : Offset).extractLsb' 0 2 ≠ 0#2 ∧
    ((0x34#8 : Offset).extractLsb' 0 2 = 0#2 ∧ 0x34#8 ≤ (0x34#8 : Offset)) := by decide

theorem witness_IllegalCommandIsRecorded : 4 ≤ (4#32 : Word).toNat := by decide

theorem witness_FirstErrorIsKept :
    status606.err = true ∧ (∃ t, exec (.wrId 0#32) status606 = .next t ∧ t.err = true) ∧
    (∃ t, exec (.wrStatus 4#32) status606 = .next t ∧ t.err = false) :=
  ⟨rfl, ⟨_, rfl, rfl⟩, ⟨_, rfl, rfl⟩⟩

theorem witness_NewErrorsHaveTheirCause :
    State.reset.err = false ∧ running.err = false ∧
    (∃ t, exec .cmdStart State.reset = .next t ∧ t.errcode = 1#4) ∧
    (∃ t, exec .cmdStart { State.reset with sampPeriod := 1#32 } = .next t ∧ t.errcode = 2#4) ∧
    (∃ t, exec .cmdStart { State.reset with sampPeriod := 1#32, symPeriod := 1#32 } = .next t ∧
      t.errcode = 3#4) ∧
    (∃ t, exec (.cmdIllegal 4#32) State.reset = .next t ∧ t.errcode = 4#4) ∧
    (∃ t, exec .cmdStart running = .next t ∧ t.errcode = 5#4) ∧
    (∃ t, exec (.wrPstate 0#32) State.reset = .next t ∧ t.errcode = 6#4) ∧
    (∃ t, exec (.badAccessUnmapped 0x34#8 .read) State.reset = .next t ∧ t.errcode = 6#4) :=
  ⟨rfl, rfl, ⟨_, rfl, rfl⟩, ⟨_, rfl, rfl⟩, ⟨_, rfl, rfl⟩, ⟨_, rfl, rfl⟩, ⟨_, rfl, rfl⟩,
    ⟨_, rfl, rfl⟩, ⟨_, rfl, rfl⟩⟩

theorem witness_PrbsAdvanceIsInvertible :
    (∃ t, exec .advPrbs31 State.reset = .next t ∧ t.lfsr = 0#31) ∧
    (let s := prbsRun 4 1 2 6 0;
      s.busy = true ∧ s.wSym ≠ 0#32 ∧ s.wPsel = .prbs31 ∧ s.lfsr = 0#31 ∧ s.lvl = false) :=
  ⟨⟨_, rfl, by decide⟩, by decide⟩

theorem witness_PrbsPeriodIsExact : (1#31 : Lfsr) ≠ 0#31 ∧ 0 < 1 ∧ 2 ^ 31 - 2 < 2 ^ 31 - 1 := by
  decide

theorem witness_AdvancesFollowTheSymbolLaws :
    (running.idx = 0#5 ∧ running.lvl = false ∧ running.wPsel = .fixed20) ∧
    (let s := prbsRun 4 1 2 6 1;
      s.idx = 0#5 ∧ s.lvl = false ∧ s.wPsel = .prbs31) ∧
    (1 ≤ 28 ∧ 28 ≤ 28) ∧ (29 ≤ 29 ∧ 31 ≤ 31) := by decide

theorem witness_RhaRoundsHalfAwayFromZero :
    0 < 8 ∧ 2 * |(4 : Int) - 8 * rha 4 8| = 8 ∧ (0 : Int) ≤ 0 := by decide

theorem witness_LevelCodesAreSymmetric :
    (2#16 : BitVec 16).toNat % 2 = 0 ∧ (65535#16 : BitVec 16).toNat % 2 = 1 := by decide

theorem witness_EdgeSamplesInterpolate : 0 < 4 ∧ 2 * 2 = 4 := by decide

theorem witness_AdvanceCountIsLeast :
    lastStep.wSym ≠ 0#32 ∧ lastStep.wSamp.toNat ≤ lastStep.acc.toNat ∧
    (let s := inRun 4 4 2 1 3 0 false 0;
      s.wSym ≠ 0#32 ∧ s.acc.toNat < s.wSamp.toNat ∧ 0 < stepAdvances s) := by decide

theorem witness_EngineStepIsTheLoop :
    (running.busy = true ∧ running.wSym ≠ 0#32 ∧ running.wSamp.toNat ≤ 1) ∧
    (let s : State := { lastStep with wSym := 0#32 };
      s.busy = true ∧ s.wSamp.toNat ≤ s.acc.toNat ∧ s.wSamp.toNat ≤ 4) := by decide

theorem witness_IdleEngineChangesNothing : State.reset.busy = false := by decide

theorem witness_EngineStepFrame :
    nextWith (exec .engineStep lastStep) (fun _ => true) = true ∧ lastStep.wPsel = .fixed20 ∧
    nextWith (exec .engineStep (prbsRun 4 1 2 6 1)) (fun _ => true) = true ∧
    (prbsRun 4 1 2 6 1).wPsel = .prbs31 := by decide

theorem witness_SamplesStayBetweenTheLevels :
    lastStep.busy = true ∧ nextWith (exec .engineStep lastStep) (fun _ => true) = true := by decide

theorem witness_AccumulatorStaysInBounds :
    Inv running ∧ running.busy = true ∧
    nextWith (exec .engineStep running) (fun _ => true) = true :=
  ⟨running_inv, by decide, by decide⟩

theorem witness_OnlyThePeriodRatioMatters :
    0 < 4 ∧ running.busy = true ∧ running.wSym ≠ 0#32 ∧ 4 * running.wSym.toNat < 2 ^ 32 ∧
    4 * running.wSamp.toNat < 2 ^ 32 ∧ 4 * running.acc.toNat < 2 ^ 32 := by decide

theorem witness_EveryEdgeFallsInItsSample :
    Inv running ∧ PhaseOk running ∧ running.busy = true ∧ 1 ≤ 1 :=
  ⟨running_inv, running_phase, by decide, by decide⟩

theorem witness_HostWritesNeverReachTheEngine :
    nextWith (exec (.wrAcc 5#32) running) (fun _ => true) = true ∧
    Instr.wrAcc 5#32 ≠ .cmdStart ∧ Instr.wrAcc 5#32 ≠ .cmdSoftReset ∧ Instr.wrAcc 5#32 ≠ .reset ∧
    Instr.wrAcc 5#32 ≠ .engineStep ∧ Instr.wrAcc 5#32 ≠ .advPrbs31 ∧
    Instr.wrAcc 5#32 ≠ .advFixed20 := by decide

theorem witness_RunsIgnoreTheConfigurationRegisters :
    nextWith (exec .engineStep running) (fun t => t.busy) = true := by decide

theorem witness_OutGrowsOnlyByEngineSteps :
    (running.busy = true ∧ nextWith (exec .engineStep running) (fun t => t.out.length == 1) = true) ∧
    (State.reset.busy = false ∧ nextWith (exec .engineStep State.reset) (fun _ => true) = true) ∧
    nextWith (exec .reset running) (fun _ => true) = true := by decide

theorem witness_SampleCounterCountsSteps :
    Inv running ∧ running.busy = true ∧
    nextWith (exec .engineStep running) (fun t => t.sampleCount != running.sampleCount) = true :=
  ⟨running_inv, by decide, by decide⟩

theorem witness_RunsEndInThreeWays :
    (Inv lastStep ∧ nextWith (exec .engineStep lastStep) (fun t => !t.busy) = true) ∧
    (Inv running ∧ running.busy = true ∧
      nextWith (exec .cmdAbort running) (fun t => !t.busy) = true ∧
      nextWith (exec .reset running) (fun t => !t.busy) = true) ∧
    (configured.busy = false ∧ nextWith (exec .cmdStart configured) (fun t => t.busy) = true) :=
  ⟨⟨lastStep_inv, by decide⟩, ⟨running_inv, by decide, by decide, by decide⟩, by decide, by decide⟩

theorem witness_AbortRacesTheLastStep :
    Inv { lastStep with schedule := [.host abortHop, .engine] } ∧
    Inv { lastStep with schedule := [.engine, .host abortHop] } ∧ lastStep.busy = true ∧
    lastStep.sampleCount.toNat + 1 = lastStep.wDepth.toNat :=
  ⟨inv_with_schedule _ _ lastStep_inv, inv_with_schedule _ _ lastStep_inv, by decide, by decide⟩

theorem witness_CompletionWinsOverAcknowledge :
    Inv { lastStep with schedule := [.host ackDoneHop, .engine] } ∧ lastStep.busy = true ∧
    lastStep.sampleCount.toNat + 1 = lastStep.wDepth.toNat :=
  ⟨inv_with_schedule _ _ lastStep_inv, by decide, by decide⟩

/-- The run of `lastStep` after its only step. -/
def completed : State := engineSample lastStep

theorem completed_inv : Inv completed where
  errRecord := by unfold ErrRecordOk; decide
  flags := by unfold FlagsOk; decide
  idx := by unfold IdxOk; decide
  working := by unfold WorkingCopiesOk; decide
  count := by unfold CountOk; decide
  acc := by unfold AccOk; decide
  out := by unfold OutOk; decide
  run := ⟨[⟨0xFFFFFFFF#32, true⟩], ⟨[], by decide⟩, by decide, by decide⟩

theorem witness_CompletionIsVisible :
    Inv completed ∧
    (∃ t, exec .rdStatus completed = .next t ∧ t.reads = completed.reads ++ [2#32] ∧
      (2#32 : Word).getLsbD 1 = true) ∧
    (∃ t, exec .rdSampleCount completed = .next t ∧ t.reads = completed.reads ++ [1#32]) :=
  ⟨completed_inv, ⟨_, rfl, by decide, by decide⟩, ⟨_, rfl, by decide⟩⟩

theorem witness_EqualCountsMeanNoStep :
    Inv { running with schedule := [.host 0x02800000000#41, .host 0x02C00000000#41] } ∧
    (∀ a ∈ [Action.host 0x02800000000#41, Action.host 0x02C00000000#41],
      actionInstr a ≠ .cmdStart ∧ actionInstr a ≠ .cmdSoftReset ∧ actionInstr a ≠ .reset) ∧
    (∃ t, runFor 2 { running with
        schedule := [.host 0x02800000000#41, .host 0x02C00000000#41] } = .next t ∧
      t.sampleCount = running.sampleCount) :=
  ⟨inv_with_schedule _ _ running_inv, by decide, ⟨_, rfl, by decide⟩⟩

theorem witness_StepKeepsInv :
    Inv { running with schedule := [.engine] } ∧
    nextWith (step { running with schedule := [.engine] }) (fun _ => true) = true :=
  ⟨inv_with_schedule _ _ running_inv, by decide⟩

theorem witness_StepKeepsPhase :
    Inv { running with schedule := [.engine] } ∧ PhaseOk { running with schedule := [.engine] } ∧
    nextWith (step { running with schedule := [.engine] }) (fun _ => true) = true :=
  ⟨inv_with_schedule _ _ running_inv, running_phase, by decide⟩

theorem witness_SafeStatesNeverStop : Inv running := running_inv

/-- A host write, an engine step and a host read: the actions of a run left alone. -/
def quietActions : List Action := [.host 0x11800000064#41, .engine, .host 0x02800000000#41]

theorem witness_EveryRunEmitsTheIdealWaveform :
    let s : State := { configured with schedule := .host startHop :: (quietActions ++ [.engine]) }
    s.busy = false ∧ Startable (configOf s) ∧ (∀ a ∈ quietActions, leavesRunAlone a = true) ∧
    s.schedule = .host startHop :: (quietActions ++ [.engine]) :=
  ⟨by decide, ⟨by decide, by decide, by decide⟩, by decide, rfl⟩

theorem witness_CompleteRunEmitsDepthSamples :
    let s : State := { configured with
      depth := 2#32, schedule := .host startHop :: ([.engine, .engine] ++ []) }
    s.busy = false ∧ Startable (configOf s) ∧
    s.schedule = .host startHop :: (List.replicate s.depth.toNat .engine ++ []) :=
  ⟨by decide, ⟨by decide, by decide, by decide⟩, by decide⟩

theorem witness_RunsAreDeterministic :
    let s : State := { configured with schedule := .host startHop :: ([.engine] ++ []) }
    let s' : State := { configured with
      aborted := true, acc := 3#32, schedule := .host startHop :: (quietActions ++ []) }
    s.busy = false ∧ s'.busy = false ∧ configOf s = configOf s' ∧ Startable (configOf s) ∧
    (∀ a ∈ [Action.engine], leavesRunAlone a = true) ∧
    (∀ a ∈ quietActions, leavesRunAlone a = true) ∧
    engineActions [.engine] = engineActions quietActions ∧
    s.schedule = .host startHop :: ([.engine] ++ []) ∧
    s'.schedule = .host startHop :: (quietActions ++ []) :=
  ⟨by decide, by decide, by decide, ⟨by decide, by decide, by decide⟩, by decide, by decide,
    by decide, rfl, rfl⟩

end Sys2Proof.Tests
end

section
/-! The rounding `rha` of 00_scope.md R9. By oddness every fact about `rha p q` is one about a
natural `p`, where `rha` is a quotient of naturals, pinned between two multiples of `2 * q`. -/

namespace Sys2Proof.Machine

theorem rha_natCast (n q : Nat) : rha n q = ((2 * n + q) / (2 * q) : Nat) := by
  simp [rha]

@[simp] theorem rha_zero (q : Nat) : rha 0 q = 0 := by
  have quotient_eq_zero : (2 * 0 + q) / (2 * q) = 0 := by rw [Nat.div_eq_zero_iff]; omega
  exact (rha_natCast 0 q).trans (by rw [quotient_eq_zero, Nat.cast_zero])

@[simp] theorem rha_neg (p : Int) (q : Nat) : rha (-p) q = -rha p q := by
  obtain hneg | rfl | hpos := lt_trichotomy p 0
  · simp [rha, hneg, hneg.le]
  · simp
  · simp [rha, hpos, hpos.le]

/-- R9's formula, with the sign of 0 taken as 1. -/
theorem rha_eq_sign_mul (p : Int) (q : Nat) :
    rha p q = (if 0 ≤ p then 1 else -1) * ((2 * |p| + q) / (2 * q)) := by
  obtain hneg | hnonneg := lt_or_ge p 0
  · simp [rha, hneg]
  · simp [rha, hnonneg]

theorem rha_natCast_nonneg (n q : Nat) : 0 ≤ rha n q := by
  rw [rha_natCast]
  exact Int.natCast_nonneg _

/-- `n / q` lies in `[r - 1/2, r + 1/2)` for `r = rha n q`; that the interval is open above is what
sends a tie away from zero. -/
theorem rha_natCast_bounds (n : Nat) {q : Nat} (hq : 0 < q) :
    2 * (q * rha n q) ≤ 2 * n + q ∧ 2 * (n : Int) < 2 * (q * rha n q) + q := by
  have lower : 2 * q * ((2 * n + q) / (2 * q)) ≤ 2 * n + q := Nat.mul_div_le _ _
  have upper : 2 * n + q < 2 * q * ((2 * n + q) / (2 * q) + 1) := Nat.lt_mul_div_succ _ (by omega)
  rw [mul_add, mul_one] at upper
  rw [rha_natCast]
  zify at lower upper ⊢
  constructor <;> linarith

/-- Both claims of R9 about the error, for one `p`: it is at most half of `q`, and where it is
exactly half the result is further from zero than `p / q`. -/
def RoundsToNearestAwayFromZero (p : Int) (q : Nat) (r : Int) : Prop :=
  2 * |p - q * r| ≤ q ∧ (2 * |p - q * r| = q → |p| < |q * r|)

theorem RoundsToNearestAwayFromZero.neg {p : Int} {q : Nat} {r : Int}
    (h : RoundsToNearestAwayFromZero p q r) : RoundsToNearestAwayFromZero (-p) q (-r) := by
  have error_neg : -p - -(q * r) = -(p - q * r) := by ring
  simpa only [RoundsToNearestAwayFromZero, mul_neg, error_neg, abs_neg] using h

theorem rha_natCast_rounds (n : Nat) {q : Nat} (hq : 0 < q) :
    RoundsToNearestAwayFromZero n q (rha n q) := by
  obtain ⟨lower, upper⟩ := rha_natCast_bounds n hq
  have product_nonneg : 0 ≤ (q : Int) * rha n q :=
    mul_nonneg (Int.natCast_nonneg q) (rha_natCast_nonneg n q)
  constructor
  · have error_le : |2 * ((n : Int) - q * rha n q)| ≤ q := abs_le.mpr ⟨by linarith, by linarith⟩
    simpa [abs_mul] using error_le
  · intro tie
    rw [abs_of_nonneg (Int.natCast_nonneg n), abs_of_nonneg product_nonneg]
    by_contra! not_further
    rw [abs_of_nonneg (sub_nonneg.mpr not_further)] at tie
    linarith

theorem rha_rounds (p : Int) {q : Nat} (hq : 0 < q) :
    RoundsToNearestAwayFromZero p q (rha p q) := by
  obtain ⟨n, rfl | rfl⟩ := p.eq_nat_or_neg
  · exact rha_natCast_rounds n hq
  · rw [rha_neg]; exact (rha_natCast_rounds n hq).neg

/-- Settles O33: the two claims about the error are `rha_rounds`, proved for a natural `p` from the
bounds of its quotient and carried to a negative one by oddness. -/
theorem rhaRoundsHalfAwayFromZero : Obligations.RhaRoundsHalfAwayFromZero := by
  intro p q hq
  obtain ⟨error_le, further_at_tie⟩ := rha_rounds p hq
  exact ⟨rha_eq_sign_mul p q, error_le, further_at_tie, rha_zero q, rha_neg p q⟩

end Sys2Proof.Machine
end

section
/-! The range of a sample (43_sample_synthesis.md R146 to R148): `rha` of an interpolated amplitude
stays within the level code, and a level code within `2^15`. -/

namespace Sys2Proof.Machine

theorem natAbs_rha (p : Int) (q : Nat) : (rha p q).natAbs = (2 * p.natAbs + q) / (2 * q) := by
  obtain hneg | hnonneg := lt_or_ge p 0
  · simp only [rha, hneg, if_true, Int.natAbs_neg, Int.natAbs_natCast]
  · simp only [rha, hnonneg.not_gt, if_false, Int.natAbs_natCast]

/-- Interpolation by `x / samp` with `|x| ≤ samp` rounds to no more than the level code. -/
theorem natAbs_rha_interpolated_le (ampl : Nat) {samp : Nat} {x : Int} (hs : 0 < samp)
    (hx : x.natAbs ≤ samp) : (rha (ampl * x) (2 * samp)).natAbs ≤ (rha ampl 2).natAbs := by
  have product_le : ampl * x.natAbs ≤ ampl * samp := Nat.mul_le_mul_left ampl hx
  rw [natAbs_rha, natAbs_rha, Int.natAbs_mul, Int.natAbs_natCast]
  calc (2 * (ampl * x.natAbs) + 2 * samp) / (2 * (2 * samp))
      ≤ (2 * (ampl * samp) + 2 * samp) / (2 * (2 * samp)) := Nat.div_le_div_right (by omega)
    _ = ((2 * ampl + 2) * samp) / (2 * 2 * samp) := by ring_nf
    _ = (2 * ampl + 2) / (2 * 2) := Nat.mul_div_mul_right _ _ hs

theorem natAbs_levelCode (ampl : Nat) (lvl : Bool) :
    (levelCode ampl lvl).natAbs = (rha ampl 2).natAbs := by
  cases lvl <;> simp [levelCode]

theorem natAbs_edgeCode_le (ampl : Nat) {samp pre : Nat} (prev : Bool) (hpre : pre < samp) :
    (edgeCode ampl samp pre prev).natAbs ≤ (rha ampl 2).natAbs := by
  cases prev <;> exact natAbs_rha_interpolated_le ampl (by omega) (by omega)

/-- A sample is no larger than the level code, where an edge falls inside its sample. -/
theorem natAbs_sampleCode_le (ampl samp pre : Nat) (prev lvl : Bool)
    (edge_inside : lvl ≠ prev → pre < samp) :
    (sampleCode ampl samp pre prev lvl).natAbs ≤ (rha ampl 2).natAbs := by
  unfold sampleCode
  split_ifs with steady
  · exact (natAbs_levelCode ampl lvl).le
  · exact natAbs_edgeCode_le ampl prev (edge_inside steady)

theorem natAbs_rha_amplitude_le (ampl : BitVec 16) : (rha ampl.toNat 2).natAbs ≤ 32768 := by
  have ampl_lt := ampl.isLt
  rw [natAbs_rha, Int.natAbs_natCast]
  omega

end Sys2Proof.Machine
end

section
/-! One engine step, element by element: the advances, the sample and the counter. -/

namespace Sys2Proof.Machine

theorem advanceMany_zero (s : State) : advanceMany 0 s = s := rfl

theorem advanceMany_idx_of_prbs31 (k : Nat) {s : State} (hp : s.wPsel = .prbs31) :
    (advanceMany k s).idx = s.idx := by
  unfold advanceMany
  rw [hp]
  split_ifs <;> rfl

theorem advanceMany_idx_lt (k : Nat) {s : State} (hidx : s.idx.toNat < 20) :
    (advanceMany k s).idx.toNat < 20 := by
  unfold advanceMany
  split_ifs
  · exact hidx
  · split
    · exact hidx
    · exact (idxPlus_toNat s.idx k).trans_lt (Nat.mod_lt _ (by norm_num))

/-- A level changes only in a step whose sample the accumulator does not cover. -/
theorem acc_lt_of_lvl_ne (s : State) (hne : (advanceMany (stepAdvances s) s).lvl ≠ s.lvl) :
    s.acc.toNat < s.wSamp.toNat := by
  by_contra! hle
  rw [stepAdvances, advanceCount_of_le _ _ _ hle, advanceMany_zero] at hne
  exact hne rfl

/-- The sample that an engine step emits, `y` of 43_sample_synthesis.md R145. -/
def stepSample (s : State) : Int :=
  sampleCode s.wAmpl.toNat s.wSamp.toNat s.acc.toNat s.lvl (advanceMany (stepAdvances s) s).lvl

/-- The transfer that an engine step emits (43_sample_synthesis.md R149). -/
def stepTransfer (s : State) : Transfer := ⟨BitVec.ofInt 32 (stepSample s), lastSample s⟩

theorem engineSample_out_eq (s : State) : (engineSample s).out = s.out ++ [stepTransfer s] :=
  engineSample_out s

theorem natAbs_stepSample_le (s : State) : (stepSample s).natAbs ≤ 32768 :=
  (natAbs_sampleCode_le _ _ _ _ _ (acc_lt_of_lvl_ne s)).trans (natAbs_rha_amplitude_le s.wAmpl)

/-- The sample is what its 32-bit form says. -/
theorem stepTransfer_data_toInt (s : State) : (stepTransfer s).data.toInt = stepSample s := by
  have small := natAbs_stepSample_le s
  exact BitVec.toInt_ofInt_eq_self (by norm_num) (by omega) (by omega)

theorem lastSample_iff (s : State) :
    lastSample s = true ↔ s.sampleCount.toNat + 1 = s.wDepth.toNat := by
  simp [lastSample]

theorem engineSample_sampleCount_toNat {s : State}
    (below : s.sampleCount.toNat < s.wDepth.toNat) :
    (engineSample s).sampleCount.toNat = s.sampleCount.toNat + 1 := by
  have no_wrap : s.sampleCount.toNat + 1 < 2 ^ 32 := by have := s.wDepth.isLt; omega
  rw [engineSample_sampleCount, BitVec.toNat_add, BitVec.toNat_one (by norm_num),
    Nat.mod_eq_of_lt no_wrap]

/-- In a run of positive periods the accumulator after a step is the one of R144, with nothing lost
in 32 bits. -/
theorem engineSample_acc_toNat {s : State} (hsamp : 0 < s.wSamp.toNat) (hsym : 0 < s.wSym.toNat)
    (hacc : s.acc.toNat ≤ s.wSym.toNat) :
    ((engineSample s).acc.toNat : Int) =
      accAfter s.acc.toNat s.wSamp.toNat s.wSym.toNat (stepAdvances s) := by
  have nonneg := accAfter_nonneg s.acc.toNat s.wSamp.toNat s.wSym.toNat (.inl hsym)
  have below := accAfter_lt s.acc.toNat s.wSamp.toNat s.wSym.toNat hsamp hsym hacc
  have sym_lt := s.wSym.isLt
  rw [engineSample_acc, BitVec.toNat_ofInt]
  unfold stepAdvances
  omega

/-- A step of a run that completes answers `engineSample`. -/
theorem eq_engineSample_of_busy {s t : State} (h : exec .engineStep s = .next t)
    (hb : s.busy = true) : t = engineSample s := by
  obtain ⟨idle, -⟩ | ⟨-, -, stops⟩ | ⟨-, -, completes⟩ := execEngineStep_cases s
  · exact absurd (idle.symm.trans hb) Bool.false_ne_true
  · cases stops.symm.trans h
  · cases completes.symm.trans h; rfl

end Sys2Proof.Machine
end

section
/-! The invariant, kept by each shared operation: one lemma per operation, from which `exec` and then
`step` keep it. -/

namespace Sys2Proof.Safety

open Sys2Proof.Machine

variable {s : State}

/-- The configuration registers, the host's reads and the schedule take no part in the invariant. -/
theorem Inv.with_config (h : Inv s) {p : Pattern} {d e : Bool} {seed : Lfsr}
    {sym samp depth : Word} {ampl : BitVec 16} {reads : List Word} {schedule : List Action} :
    Inv { s with psel := p, ieDone := d, ieErr := e, seed := seed, symPeriod := sym,
                 sampPeriod := samp, depth := depth, amplitude := ampl, reads := reads,
                 schedule := schedule } :=
  ⟨h.errRecord, h.flags, h.idx, h.working, h.count, h.acc, h.out, h.run⟩

theorem errCode_range (c : ErrCause) : 1 ≤ (errCode c).toNat ∧ (errCode c).toNat ≤ 6 := by
  cases c <;> decide

theorem Inv.raiseErr (h : Inv s) (c : ErrCause) : Inv (raiseErr c s) where
  errRecord := by
    obtain ⟨-, recorded⟩ := h.errRecord
    refine ⟨nofun, fun _ => ?_⟩
    rw [raiseErr_errcode]
    split_ifs with herr
    · exact recorded herr
    · exact errCode_range c
  flags := h.flags
  idx := h.idx
  working := h.working
  count := h.count
  acc := h.acc
  out := h.out
  run := h.run

theorem Inv.badAccess (h : Inv s) (acc : Access) : Inv (badAccess acc s) := by
  cases acc with
  | read => exact h.with_config.raiseErr .badAccess
  | write v => exact h.raiseErr .badAccess

theorem done_of_ackStatus {v : Word} (hd : (Machine.ackStatus v s).done = true) :
    s.done = true := by
  rw [ackStatus_done] at hd
  split_ifs at hd
  exact hd

theorem aborted_of_ackStatus {v : Word} (ha : (Machine.ackStatus v s).aborted = true) :
    s.aborted = true := by
  rw [ackStatus_aborted] at ha
  split_ifs at ha
  exact ha

/-- The acknowledge only clears flags, and clears `ERRCODE` together with `ERR`. -/
theorem Inv.ackStatus (h : Inv s) (v : Word) : Inv (ackStatus v s) where
  errRecord := by
    have recorded := h.errRecord
    unfold ErrRecordOk
    rw [ackStatus_err, ackStatus_errcode]
    cases clearsErr v with
    | true => exact ⟨fun _ => rfl, nofun⟩
    | false => exact recorded
  flags := by
    obtain ⟨exclusive, running⟩ := h.flags
    refine ⟨fun ⟨hd, ha⟩ => exclusive ⟨done_of_ackStatus hd, aborted_of_ackStatus ha⟩, fun hb => ?_⟩
    obtain ⟨hdone, haborted⟩ := running hb
    rw [ackStatus_done, ackStatus_aborted, hdone, haborted, ite_self, ite_self]
    exact ⟨rfl, rfl⟩
  idx := h.idx
  working := by
    obtain started | ⟨hsym, hsamp, hdepth, hampl, hbusy, hdone⟩ := h.working
    · exact .inl started
    · refine .inr ⟨hsym, hsamp, hdepth, hampl, hbusy, ?_⟩
      rw [ackStatus_done, hdone, ite_self]
  count := by
    obtain ⟨le, busy, done, aborted⟩ := h.count
    exact ⟨le, busy, fun hd => done (done_of_ackStatus hd),
      fun ha => aborted (aborted_of_ackStatus ha)⟩
  acc := h.acc
  out := h.out
  run := h.run

/-- With the counter at 0 the run in `OUT` is the empty one. -/
theorem runInOut_nil (hcount : s.sampleCount = 0#32) : RunInOut s [] :=
  ⟨⟨s.out, (List.append_nil _).symm⟩, by rw [hcount]; rfl, nofun⟩

theorem startError_none (h : startError s = none) :
    s.busy = false ∧ s.sampPeriod ≠ 0#32 ∧ s.symPeriod ≠ 0#32 ∧ s.depth ≠ 0#32 := by
  unfold startError at h
  split_ifs at h with hb hsamp hsym hdepth
  exact ⟨by simpa using hb, hsamp, hsym, hdepth⟩

theorem Inv.beginRun (h : Inv s) (accepted : startError s = none) : Inv (beginRun s) where
  errRecord := h.errRecord
  flags := ⟨nofun, fun _ => ⟨rfl, rfl⟩⟩
  idx := ⟨Nat.zero_lt_succ 19, fun _ => rfl⟩
  working := by
    obtain ⟨-, hsamp, hsym, hdepth⟩ := startError_none accepted
    exact .inl ⟨hsym, hsamp, hdepth⟩
  count := by
    obtain ⟨-, -, -, hdepth⟩ := startError_none accepted
    exact ⟨Nat.zero_le _, fun _ => BitVec.toNat_pos_of_ne_zero hdepth, nofun, nofun⟩
  acc := le_refl s.symPeriod.toNat
  out := h.out
  run := ⟨[], runInOut_nil rfl⟩

/-- During a run the working copies are those of an accepted START. -/
theorem Inv.started_of_busy (h : Inv s) (hb : s.busy = true) :
    s.wSym ≠ 0#32 ∧ s.wSamp ≠ 0#32 ∧ s.wDepth ≠ 0#32 := by
  obtain started | ⟨-, -, -, -, hidle, -⟩ := h.working
  · exact started
  · exact absurd (hidle.symm.trans hb) Bool.false_ne_true

theorem Inv.abortRun (h : Inv s) (hb : s.busy = true) : Inv (abortRun s) where
  errRecord := h.errRecord
  flags := by
    obtain ⟨-, running⟩ := h.flags
    obtain ⟨hdone, -⟩ := running hb
    exact ⟨fun ⟨hd, _⟩ => absurd (hdone.symm.trans hd) Bool.false_ne_true, nofun⟩
  idx := h.idx
  working := .inl (h.started_of_busy hb)
  count := by
    obtain ⟨le, busy, done, -⟩ := h.count
    exact ⟨le, nofun, done, fun _ => busy hb⟩
  acc := h.acc
  out := h.out
  run := h.run

/-- The reset action establishes the invariant but for the history `OUT`, which it keeps. -/
theorem inv_resetBlock (hout : OutOk s) : Inv (resetBlock s) where
  errRecord := ⟨fun _ => rfl, nofun⟩
  flags := ⟨nofun, nofun⟩
  idx := ⟨Nat.zero_lt_succ 19, fun _ => rfl⟩
  working := .inr ⟨rfl, rfl, rfl, rfl, rfl, rfl⟩
  count := ⟨le_refl 0, nofun, nofun, nofun⟩
  acc := le_refl 0
  out := hout
  run := ⟨[], runInOut_nil rfl⟩

theorem Inv.advancePrbs31 (h : Inv s) : Inv (advancePrbs31 s) :=
  ⟨h.errRecord, h.flags, h.idx, h.working, h.count, h.acc, h.out, h.run⟩

/-! ### The engine step -/

theorem Inv.sampleCount_lt_of_busy (h : Inv s) (hb : s.busy = true) :
    s.sampleCount.toNat < s.wDepth.toNat := by
  obtain ⟨-, busy, -, -⟩ := h.count
  exact busy hb

theorem stepTransfer_data_range (s : State) :
    -32768 ≤ (stepTransfer s).data.toInt ∧ (stepTransfer s).data.toInt ≤ 32768 := by
  have small := natAbs_stepSample_le s
  rw [stepTransfer_data_toInt]
  omega

/-- The transfer of a step extends the run in `OUT`. -/
theorem RunInOut.engineSample {run : List Transfer} (h : RunInOut s run)
    (below : s.sampleCount.toNat < s.wDepth.toNat) :
    RunInOut (engineSample s) (run ++ [stepTransfer s]) := by
  obtain ⟨⟨earlier, hout⟩, hlength, hlast⟩ := h
  refine ⟨⟨earlier, ?_⟩, ?_, fun n hn => ?_⟩
  · rw [engineSample_out_eq, hout, List.append_assoc]
  · rw [engineSample_sampleCount_toNat below, List.length_append, hlength, List.length_singleton]
  · rw [engineSample_wDepth]
    obtain earlier_sample | this_sample := Nat.lt_or_ge n run.length
    · rw [List.getElem_append_left earlier_sample]
      exact hlast n earlier_sample
    · have hn_le : n < run.length + 1 := by simpa using hn
      obtain rfl : n = s.sampleCount.toNat := by omega
      rw [List.getElem_append_right this_sample, List.getElem_singleton]
      rfl

theorem Inv.engineSample (h : Inv s) (hb : s.busy = true) : Inv (engineSample s) := by
  have started := h.started_of_busy hb
  obtain ⟨-, running⟩ := h.flags
  obtain ⟨hdone, haborted⟩ := running hb
  have below := h.sampleCount_lt_of_busy hb
  have counted := engineSample_sampleCount_toNat below
  constructor
  case errRecord => simpa [ErrRecordOk] using h.errRecord
  case flags =>
    rw [FlagsOk, engineSample_busy, engineSample_done, engineSample_aborted, hdone, haborted]
    cases lastSample s with
    | true => exact ⟨nofun, nofun⟩
    | false => exact ⟨nofun, fun _ => ⟨rfl, rfl⟩⟩
  case idx =>
    obtain ⟨hidx, hzero⟩ := h.idx
    rw [IdxOk, engineSample_idx, engineSample_wPsel]
    exact ⟨advanceMany_idx_lt _ hidx, fun hp => (advanceMany_idx_of_prbs31 _ hp).trans (hzero hp)⟩
  case working =>
    rw [WorkingCopiesOk, engineSample_wSym, engineSample_wSamp, engineSample_wDepth]
    exact .inl started
  case count =>
    have last_iff := lastSample_iff s
    rw [CountOk, engineSample_busy, engineSample_done, engineSample_aborted, engineSample_wDepth,
      ← BitVec.toNat_inj, counted, hdone, haborted]
    cases hlast : lastSample s with
    | true => exact ⟨below, nofun, fun _ => last_iff.mp hlast, nofun⟩
    | false =>
      have not_last : s.sampleCount.toNat + 1 ≠ s.wDepth.toNat := by simpa [hlast] using last_iff
      exact ⟨below, fun _ => by omega, nofun, nofun⟩
  case acc =>
    obtain ⟨sym_ne, samp_ne, -⟩ := started
    have hsym := BitVec.toNat_pos_of_ne_zero sym_ne
    have hsamp := BitVec.toNat_pos_of_ne_zero samp_ne
    have hacc := engineSample_acc_toNat hsamp hsym h.acc
    have hlt := accAfter_lt s.acc.toNat s.wSamp.toNat s.wSym.toNat hsamp hsym h.acc
    rw [AccOk, engineSample_wSym]
    unfold stepAdvances at hacc
    omega
  case out =>
    intro x hx
    rw [engineSample_out_eq, List.mem_append, List.mem_singleton] at hx
    obtain hold | rfl := hx
    · exact h.out x hold
    · exact stepTransfer_data_range s
  case run =>
    obtain ⟨run, hrun⟩ := h.run
    exact ⟨_, hrun.engineSample below⟩

/-! ### Every operation and every step -/

/-- Every operation but the FIXED20 advance keeps the invariant; that advance alone, which no action
performs, would move the index of a PRBS31 run (42_pattern_sources.md R139). -/
theorem Inv.exec {i : Instr} {t : State} (h : Inv s) (hi : i ≠ .advFixed20)
    (hstep : exec i s = .next t) : Inv t := by
  rcases exec_next_cases i s t hstep with
    ⟨r, -, rfl⟩ | ⟨v, write⟩ | ⟨v, -, rfl⟩ | ⟨off, acc, -, rfl⟩ | ⟨-, rfl⟩ | ⟨-, c, -, rfl⟩ |
    ⟨-, accepted, rfl⟩ | ⟨-, hb, rfl⟩ | ⟨-, -, rfl⟩ | ⟨-, rfl⟩ | ⟨v, -, rfl⟩ | ⟨-, -, rfl⟩ |
    ⟨-, hb, -, rfl⟩ | ⟨-, rfl⟩ | ⟨advance, -⟩
  · exact h.with_config
  · rcases write with ⟨-, rfl⟩ | ⟨-, rfl⟩ | ⟨-, rfl⟩ | ⟨-, rfl⟩ | ⟨-, rfl⟩ | ⟨-, rfl⟩ | ⟨-, rfl⟩
    iterate 6 exact h.with_config
    exact h.ackStatus v
  · exact h.raiseErr .badAccess
  · exact h.badAccess acc
  · exact h
  · exact h.raiseErr c
  · exact h.beginRun accepted
  · exact h.abortRun hb
  · exact h
  · exact inv_resetBlock h.out
  · exact h.raiseErr .illegalCmd
  · exact h
  · exact h.engineSample hb
  · exact h.advancePrbs31
  · exact absurd advance hi

theorem readOf_ne_advFixed20 (r : Reg) : readOf r ≠ .advFixed20 := by cases r <;> nofun

theorem commandOf_ne_advFixed20 (v : Word) : commandOf v ≠ .advFixed20 := by
  unfold commandOf
  split_ifs <;> nofun

theorem writeOf_ne_advFixed20 (r : Reg) (v : Word) : writeOf r v ≠ .advFixed20 := by
  cases r
  case cmd => exact commandOf_ne_advFixed20 v
  all_goals nofun

/-- No host word asks for a FIXED20 advance (30_encoding.md R78). -/
theorem decode_ne_advFixed20 (hop : Hop) : decode hop ≠ .advFixed20 := by
  unfold decode
  split
  · nofun
  · split
    · nofun
    · split
      · exact readOf_ne_advFixed20 _
      · exact writeOf_ne_advFixed20 _ _

theorem actionInstr_ne_advFixed20 (a : Action) : actionInstr a ≠ .advFixed20 := by
  cases a with
  | host hop => exact decode_ne_advFixed20 hop
  | engine => nofun
  | reset => nofun

/-- Settles O55: a step is the operation of the next action, which is no FIXED20 advance alone, on a
state that differs in its schedule only. -/
theorem stepKeepsInv : Obligations.StepKeepsInv := by
  intro s t hinv hstep
  obtain ⟨-, rfl⟩ | ⟨a, rest, -, hexec⟩ := step_next_cases s t hstep
  · exact hinv
  · exact hinv.with_config.exec (actionInstr_ne_advFixed20 a) hexec

/-- Settles O54: the reset state is the one the reset action reaches from an empty history, and the
phase law speaks of no state without a START. -/
theorem resetIsSafe : Obligations.ResetIsSafe := by
  have out_empty : OutOk State.reset := nofun
  exact ⟨inv_resetBlock out_empty, fun started => absurd rfl started⟩

end Sys2Proof.Safety
end

section
/-! What an operation and a step may do to `OUT`, the schedule and the interrupt level. -/

namespace Sys2Proof.Machine

/-- Any operation but an enabled engine step leaves `OUT` as it is (10_state.md R40). -/
theorem exec_out_of_not_step {i : Instr} {s t : State} (h : exec i s = .next t)
    (hi : i ≠ .engineStep ∨ s.busy = false) : t.out = s.out := by
  rcases exec_next_cases i s t h with
    ⟨r, -, rfl⟩ | ⟨v, write⟩ | ⟨v, -, rfl⟩ | ⟨off, acc, -, rfl⟩ | ⟨-, rfl⟩ | ⟨-, c, -, rfl⟩ |
    ⟨-, -, rfl⟩ | ⟨-, -, rfl⟩ | ⟨-, -, rfl⟩ | ⟨-, rfl⟩ | ⟨v, -, rfl⟩ | ⟨-, -, rfl⟩ |
    ⟨engine, hb, -, -⟩ | ⟨-, rfl⟩ | ⟨-, rfl⟩
  · rfl
  · rcases write with ⟨-, rfl⟩ | ⟨-, rfl⟩ | ⟨-, rfl⟩ | ⟨-, rfl⟩ | ⟨-, rfl⟩ | ⟨-, rfl⟩ | ⟨-, rfl⟩ <;>
      rfl
  · rfl
  · exact badAccess_out acc s
  · rfl
  · rfl
  · rfl
  · rfl
  · rfl
  · rfl
  · rfl
  · rfl
  · obtain other | idle := hi
    · exact absurd engine other
    · exact absurd (idle.symm.trans hb) Bool.false_ne_true
  · rfl
  · rfl

/-- Settles O46: an enabled engine step appends `stepTransfer`, and every other operation leaves
`OUT`. -/
theorem outGrowsOnlyByEngineSteps : Obligations.OutGrowsOnlyByEngineSteps := by
  intro i s t h
  refine ⟨?_, exec_out_of_not_step h⟩
  rintro rfl hb
  rw [eq_engineSample_of_busy h hb]
  exact ⟨stepTransfer s, engineSample_out_eq s, rfl⟩

theorem step_of_schedule_nil {s : State} (h : s.schedule = []) : step s = .next s := by
  rw [step, nextAction, h]

theorem step_of_schedule_cons {s : State} {a : Action} {rest : List Action}
    (h : s.schedule = a :: rest) :
    step s = exec (actionInstr a) { s with schedule := rest } := by
  rw [step, nextAction, h]

/-- Settles O11: the four clauses are the empty schedule and the three kinds of action. -/
theorem stepPerformsTheNextAction : Obligations.StepPerformsTheNextAction := by
  intro s rest
  exact ⟨step_of_schedule_nil, fun _ => step_of_schedule_cons, step_of_schedule_cons,
    step_of_schedule_cons⟩

theorem irq_resetBlock (s : State) : irq (resetBlock s) = false := rfl

theorem resetBlock_resetBlock (s : State) : resetBlock (resetBlock s) = resetBlock s := rfl

/-- Settles O22: both resets answer `resetBlock`, which is idempotent. -/
theorem softResetIsTheReset : Obligations.SoftResetIsTheReset := by
  intro s
  exact ⟨resetBlock s, rfl, rfl, rfl, rfl, irq_resetBlock s,
    congrArg Host.Outcome.next (resetBlock_resetBlock s)⟩

theorem statusWord_getLsbD_done (s : State) : (statusWord s).getLsbD 1 = s.done := by
  simp only [statusWord, BitVec.getLsbD_append, BitVec.getLsbD_ofBool]; simp

theorem statusWord_getLsbD_err (s : State) : (statusWord s).getLsbD 2 = s.err := by
  simp only [statusWord, BitVec.getLsbD_append, BitVec.getLsbD_ofBool]; simp

theorem ctrlWord_getLsbD_ieDone (s : State) : (ctrlWord s).getLsbD 1 = s.ieDone := by
  simp only [ctrlWord, BitVec.getLsbD_append, BitVec.getLsbD_ofBool]; simp

theorem ctrlWord_getLsbD_ieErr (s : State) : (ctrlWord s).getLsbD 2 = s.ieErr := by
  simp only [ctrlWord, BitVec.getLsbD_append, BitVec.getLsbD_ofBool]; simp

/-- Settles O27: bits 1 and 2 of the two words are the flags and enables that `irq` joins. -/
theorem irqIsTheEnabledPendingLevel : Obligations.IrqIsTheEnabledPendingLevel := by
  refine ⟨fun s => ?_, rfl⟩
  simp only [regValue, statusWord_getLsbD_done, statusWord_getLsbD_err, ctrlWord_getLsbD_ieDone,
    ctrlWord_getLsbD_ieErr, irq]

end Sys2Proof.Machine
end

section
/-! The register window in the host's address space (20_memory.md R50, R51). -/

namespace Sys2Proof

theorem dvd_base : 256 ∣ Config.base := Dvd.intro _ rfl

/-- `BASE` takes no part in the low eight bits of an address. -/
theorem ofNat_sub_base {addr : Nat} (hle : Config.base ≤ addr) :
    BitVec.ofNat 8 (addr - Config.base) = BitVec.ofNat 8 addr := by
  have aligned := dvd_base
  apply BitVec.eq_of_toNat_eq
  rw [BitVec.toNat_ofNat, BitVec.toNat_ofNat]
  omega

theorem busOffset_of_inside {addr : Nat} (hle : Config.base ≤ addr)
    (hlt : addr < Config.base + 256) : busOffset addr = some (BitVec.ofNat 8 addr) := by
  rw [busOffset, if_pos ⟨hle, hlt⟩, ofNat_sub_base hle]

theorem busOffset_of_outside {addr : Nat} (h : addr < Config.base ∨ Config.base + 256 ≤ addr) :
    busOffset addr = none := by
  rw [busOffset, if_neg (by omega)]

/-- Settles O8: the offset of an address in the window is its low eight bits, as `BASE` is a multiple
of 256. -/
theorem windowIsTheAddressSpace : Obligations.WindowIsTheAddressSpace := by
  refine ⟨dvd_base, fun addr acc => ⟨fun hle hlt => ?_, fun outside => ?_⟩⟩
  · rw [busHop, busOffset_of_inside hle hlt, Option.map_some]
  · rw [busHop, busOffset_of_outside outside, Option.map_none]

end Sys2Proof
end

section
/-! Register reads, the steps of a schedule, and what the host sees of a run's completion
(20_memory.md R59, R61). -/

namespace Sys2Proof.Machine

theorem exec_readOf (r : Reg) (s : State) : exec (readOf r) s = .next (readReg r s) := by
  cases r <;> rfl

/-- The value a register read adds to the host's reads is the register's. -/
theorem eq_regValue_of_read {r : Reg} {s t : State} {v : Word} (h : exec (readOf r) s = .next t)
    (hreads : t.reads = s.reads ++ [v]) : v = regValue r s := by
  cases (exec_readOf r s).symm.trans h
  rw [readReg_reads] at hreads
  exact (List.append_singleton_inj.mp hreads).2.symm

theorem loopDiverges_of_wSym_ne {s : State} (h : s.wSym ≠ 0#32) : loopDiverges s = false := by
  rw [loopDiverges, beq_false_of_ne h, Bool.false_and]

theorem execEngineStep_of_busy {s : State} (hb : s.busy = true) (hsym : s.wSym ≠ 0#32) :
    execEngineStep s = .next (engineSample s) := by
  obtain ⟨idle, -⟩ | ⟨-, diverges, -⟩ | ⟨-, -, completes⟩ := execEngineStep_cases s
  · exact absurd (idle.symm.trans hb) Bool.false_ne_true
  · exact absurd ((loopDiverges_of_wSym_ne hsym).symm.trans diverges) Bool.false_ne_true
  · exact completes

/-- Where a run is on, a scheduled engine step happens. -/
theorem step_engine {s : State} {rest : List Action} (hsched : s.schedule = .engine :: rest)
    (hb : s.busy = true) (hsym : s.wSym ≠ 0#32) :
    step s = .next (engineSample { s with schedule := rest }) := by
  rw [step_of_schedule_cons hsched]
  exact execEngineStep_of_busy (s := { s with schedule := rest }) hb hsym

/-- The last step completes the run (43_sample_synthesis.md R151). -/
theorem engineSample_of_last {s : State} (h : lastSample s = true) :
    (engineSample s).done = true ∧ (engineSample s).busy = false := by
  rw [engineSample_done, engineSample_busy, h]
  exact ⟨rfl, rfl⟩

theorem decode_ackDoneHop : decode Safety.ackDoneHop = .wrStatus 2#32 := by decide

theorem step_ackDone {s : State} {rest : List Action}
    (hsched : s.schedule = .host Safety.ackDoneHop :: rest) :
    step s = .next (ackStatus 2#32 { s with schedule := rest }) := by
  rw [step_of_schedule_cons hsched, actionInstr, decode_ackDoneHop]
  rfl

end Sys2Proof.Machine

namespace Sys2Proof.Safety

open Sys2Proof.Machine

variable {s t : State}

/-- After `DONE` the run in `OUT` is not empty: the counter holds an accepted `DEPTH`. -/
theorem Inv.complete_of_done (h : Inv s) (hd : s.done = true) :
    s.sampleCount = s.wDepth ∧ 0 < s.wDepth.toNat := by
  obtain ⟨-, -, done, -⟩ := h.count
  obtain ⟨-, -, hdepth⟩ | ⟨-, -, -, -, -, hclear⟩ := h.working
  · exact ⟨done hd, BitVec.toNat_pos_of_ne_zero hdepth⟩
  · exact absurd (hclear.symm.trans hd) Bool.false_ne_true

/-- A run of all its transfers ends with the one that carries `LAST`. -/
theorem RunInOut.getLast?_of_length_eq {run : List Transfer} (h : RunInOut s run)
    (hlength : run.length = s.wDepth.toNat) (hpos : 0 < s.wDepth.toNat) :
    ∃ x : Transfer, run.getLast? = some x ∧ x.last = true := by
  obtain ⟨-, -, hlast⟩ := h
  have last_lt : run.length - 1 < run.length := by omega
  refine ⟨run[run.length - 1], ?_, ?_⟩
  · rw [List.getLast?_eq_getElem?, List.getElem?_eq_getElem last_lt]
  · rw [hlast _ last_lt, beq_iff_eq]
    omega

/-- Settles O52: the word read shows the `DONE` or the `SAMPLE_COUNT` of the state, for which the
invariant has the run in `OUT`. -/
theorem completionIsVisible : Obligations.CompletionIsVisible := by
  intro s t v hinv hreads
  obtain ⟨run, hrun⟩ := hinv.run
  have ⟨_, hlength, _⟩ := hrun
  constructor
  · intro hstatus hbit
    obtain rfl : v = statusWord s := eq_regValue_of_read (r := .status) hstatus hreads
    rw [statusWord_getLsbD_done] at hbit
    obtain ⟨hcount, hpos⟩ := hinv.complete_of_done hbit
    rw [hcount] at hlength
    exact ⟨run, hrun, hlength, hrun.getLast?_of_length_eq hlength hpos⟩
  · intro hcount
    obtain rfl : v = s.sampleCount := eq_regValue_of_read (r := .sampleCount) hcount hreads
    exact ⟨run, hrun, hlength⟩

theorem runFor_zero (s : State) : runFor 0 s = .next s := rfl

theorem coreRun_succ_of_step {M : Host.Core} {k : Nat} {s t : M.State} (h : M.step s = .next t) :
    M.run (k + 1) s = M.run k t := by
  rw [Host.Core.run, h]

theorem runFor_succ_of_step {k : Nat} (h : step s = .next t) : runFor (k + 1) s = runFor k t :=
  coreRun_succ_of_step (M := Sys2Proof.core) h

/-- Settles O51: the acknowledge leaves the counter and the run alone, so the engine step after it is
still the last one, and that step sets `DONE`. -/
theorem completionWinsOverAcknowledge : Obligations.CompletionWinsOverAcknowledge := by
  intro s rest hinv hb hcount hsched
  obtain ⟨hsym, -, -⟩ := hinv.started_of_busy hb
  have is_last := (lastSample_iff s).mpr hcount
  have acknowledge := step_ackDone hsched
  have last_step :=
    step_engine (s := ackStatus 2#32 { s with schedule := .engine :: rest }) rfl hb hsym
  obtain ⟨hdone, hidle⟩ :=
    engineSample_of_last (s := ackStatus 2#32 { s with schedule := rest }) is_last
  refine ⟨_, ?_, hdone, hidle, engineSample_schedule _⟩
  rw [runFor_succ_of_step acknowledge, runFor_succ_of_step last_step, runFor_zero]
  rfl

end Sys2Proof.Safety
end

section
/-! The decoder's lines and the operations they answer with (30_encoding.md R70, R71): one equation
per line, and every operation sorted by the line it comes from. -/

namespace Sys2Proof

variable {h : Hop} {r : Reg} {v : Word}

/-! ## Offsets, accesses and words -/

theorem mkHop_injective (wr : Bool) (off : Offset) : Function.Injective (mkHop wr off) :=
  Function.LeftInverse.injective (hopData_mkHop wr off)

theorem misaligned_iff (off : Offset) : misaligned off = true ↔ off.extractLsb' 0 2 ≠ 0#2 :=
  bne_iff_ne

theorem misaligned_eq_false_iff (off : Offset) :
    misaligned off = false ↔ off.extractLsb' 0 2 = 0#2 :=
  bne_eq_false_iff_eq

theorem regAt_of_beyondMap (off : Offset) (beyond : beyondMap off = true) : regAt off = none := by
  revert off; decide

theorem regAt_isSome_of_mapped (off : Offset) (aligned : misaligned off = false)
    (mapped : beyondMap off = false) : (regAt off).isSome = true := by
  revert off; decide

/-- Every aligned offset of the map is a register's (30_encoding.md R71). -/
theorem exists_eq_regOffset {off : Offset} (aligned : misaligned off = false)
    (mapped : beyondMap off = false) : ∃ r : Reg, off = regOffset r := by
  obtain ⟨r, hr⟩ := Option.isSome_iff_exists.mp (regAt_isSome_of_mapped off aligned mapped)
  exact ⟨r, (regOffset_of_regAt off r hr).symm⟩

theorem hopAccess_of_read (hwr : hopWr h = false) : hopAccess h = .read := by
  rw [hopAccess, hwr, if_neg Bool.false_ne_true]

theorem hopAccess_of_write (hwr : hopWr h = true) : hopAccess h = .write (hopData h) := by
  rw [hopAccess, if_pos hwr]

/-- The word of a word's own access differs from it in the data of a read only. -/
theorem accessHop_hopAccess (h : Hop) :
    accessHop (hopOff h) (hopAccess h) =
      mkHop (hopWr h) (hopOff h) (if hopWr h then hopData h else 0#32) := by
  cases hwr : hopWr h with
  | false => rw [hopAccess_of_read hwr]; rfl
  | true => rw [hopAccess_of_write hwr]; rfl

/-! ## The lines of the decoder -/

theorem decode_of_misaligned (bad : misaligned (hopOff h) = true) :
    decode h = .badAccessMisaligned (hopOff h) (hopAccess h) := by
  rw [decode, if_pos bad]

theorem decode_of_beyondMap (aligned : misaligned (hopOff h) = false)
    (beyond : beyondMap (hopOff h) = true) :
    decode h = .badAccessUnmapped (hopOff h) (hopAccess h) := by
  rw [decode, if_neg (ne_true_of_eq_false aligned), regAt_of_beyondMap _ beyond]

theorem decode_of_read (hoff : hopOff h = regOffset r) (hwr : hopWr h = false) :
    decode h = readOf r := by
  rw [decode, hoff, misaligned_regOffset, if_neg Bool.false_ne_true, regAt_regOffset,
    hopAccess_of_read hwr]

theorem decode_of_write (hoff : hopOff h = regOffset r) (hwr : hopWr h = true) :
    decode h = writeOf r (hopData h) := by
  rw [decode, hoff, misaligned_regOffset, if_neg Bool.false_ne_true, regAt_regOffset,
    hopAccess_of_write hwr]

/-- Every word is on one of the lines. -/
theorem decode_cases (h : Hop) :
    (misaligned (hopOff h) = true ∧ decode h = .badAccessMisaligned (hopOff h) (hopAccess h)) ∨
    (misaligned (hopOff h) = false ∧ beyondMap (hopOff h) = true ∧
      decode h = .badAccessUnmapped (hopOff h) (hopAccess h)) ∨
    (∃ r : Reg, hopOff h = regOffset r ∧ hopWr h = false ∧ decode h = readOf r) ∨
    (∃ r : Reg, hopOff h = regOffset r ∧ hopWr h = true ∧ decode h = writeOf r (hopData h)) := by
  cases bad : misaligned (hopOff h) with
  | true => exact .inl ⟨rfl, decode_of_misaligned bad⟩
  | false =>
    cases beyond : beyondMap (hopOff h) with
    | true => exact .inr (.inl ⟨rfl, rfl, decode_of_beyondMap bad beyond⟩)
    | false =>
      obtain ⟨r, hoff⟩ := exists_eq_regOffset bad beyond
      cases hwr : hopWr h with
      | false => exact .inr (.inr (.inl ⟨r, hoff, rfl, decode_of_read hoff hwr⟩))
      | true => exact .inr (.inr (.inr ⟨r, hoff, rfl, decode_of_write hoff hwr⟩))

theorem decode_readHop (r : Reg) : decode (readHop r) = readOf r :=
  decode_of_read (hopOff_mkHop _ _ _) (hopWr_mkHop _ _ _)

theorem decode_writeHop (r : Reg) (v : Word) : decode (writeHop r v) = writeOf r v :=
  (decode_of_write (hopOff_mkHop _ _ _) (hopWr_mkHop _ _ _)).trans
    (congrArg (writeOf r) (hopData_mkHop _ _ _))

/-! ## The operations of a line -/

/-- The command of a data word, or the illegal class from 4 on (30_encoding.md R75). -/
theorem commandOf_cases (v : Word) :
    (v = 0#32 ∧ commandOf v = .cmdNop) ∨ (v = 1#32 ∧ commandOf v = .cmdStart) ∨
    (v = 2#32 ∧ commandOf v = .cmdAbort) ∨ (v = 3#32 ∧ commandOf v = .cmdSoftReset) ∨
    (4 ≤ v.toNat ∧ commandOf v = .cmdIllegal v) := by
  unfold commandOf
  split_ifs with nop start abort softReset
  · exact .inl ⟨nop, rfl⟩
  · exact .inr (.inl ⟨start, rfl⟩)
  · exact .inr (.inr (.inl ⟨abort, rfl⟩))
  · exact .inr (.inr (.inr (.inl ⟨softReset, rfl⟩)))
  · exact .inr (.inr (.inr (.inr ⟨by bv_omega, rfl⟩)))

theorem ne_of_four_le (hge : 4 ≤ v.toNat) {c : Word} (hc : c.toNat < 4) : v ≠ c := by
  rintro rfl
  omega

theorem wellFormed_cmdIllegal_iff (v : Word) :
    WellFormed (.cmdIllegal v) = true ↔ 4 ≤ v.toNat :=
  decide_eq_true_iff

theorem commandOf_of_four_le (hge : 4 ≤ v.toNat) : commandOf v = .cmdIllegal v := by
  obtain ⟨rfl, -⟩ | ⟨rfl, -⟩ | ⟨rfl, -⟩ | ⟨rfl, -⟩ | ⟨-, illegal⟩ := commandOf_cases v
  case inr.inr.inr.inr => exact illegal
  all_goals exact absurd hge (by decide)

theorem encode_readOf (r : Reg) : encode (readOf r) = some (readHop r) := by cases r <;> rfl

theorem encode_commandOf (v : Word) : encode (commandOf v) = some (writeHop .cmd v) := by
  obtain ⟨rfl, e⟩ | ⟨rfl, e⟩ | ⟨rfl, e⟩ | ⟨rfl, e⟩ | ⟨-, e⟩ := commandOf_cases v <;> rw [e] <;> rfl

theorem encode_writeOf (r : Reg) (v : Word) : encode (writeOf r v) = some (writeHop r v) := by
  cases r
  case cmd => exact encode_commandOf v
  all_goals rfl

theorem wellFormed_readOf (r : Reg) : WellFormed (readOf r) = true := by cases r <;> rfl

theorem wellFormed_commandOf (v : Word) : WellFormed (commandOf v) = true := by
  obtain ⟨-, e⟩ | ⟨-, e⟩ | ⟨-, e⟩ | ⟨-, e⟩ | ⟨hge, e⟩ := commandOf_cases v
  case inr.inr.inr.inr => rw [e, wellFormed_cmdIllegal_iff]; exact hge
  all_goals rw [e]; rfl

theorem wellFormed_writeOf (r : Reg) (v : Word) : WellFormed (writeOf r v) = true := by
  cases r
  case cmd => exact wellFormed_commandOf v
  all_goals rfl

/-- The four operations that the host cannot ask for (30_encoding.md R78). -/
def Internal (i : Instr) : Prop :=
  i = .engineStep ∨ i = .advPrbs31 ∨ i = .advFixed20 ∨ i = .reset

theorem encode_of_internal {i : Instr} (hi : Internal i) : encode i = none := by
  obtain rfl | rfl | rfl | rfl := hi <;> rfl

theorem tableRow_of_internal {i : Instr} (hi : Internal i) : tableRow i = none := by
  obtain rfl | rfl | rfl | rfl := hi <;> rfl

/-- An operation, sorted by the line of the decoder that answers with it. -/
inductive Origin : Instr → Prop
  | read (r : Reg) : Origin (readOf r)
  | write (r : Reg) (v : Word) : Origin (writeOf r v)
  | illegal (v : Word) : Origin (.cmdIllegal v)
  | misaligned (off : Offset) (acc : Access) : Origin (.badAccessMisaligned off acc)
  | unmapped (off : Offset) (acc : Access) : Origin (.badAccessUnmapped off acc)
  | internal {i : Instr} (hi : Internal i) : Origin i

theorem origin (i : Instr) : Origin i := by
  cases i with
  | rdId => exact .read .id
  | rdCtrl => exact .read .ctrl
  | rdSeed => exact .read .seed
  | rdSymPeriod => exact .read .symPeriod
  | rdSampPeriod => exact .read .sampPeriod
  | rdDepth => exact .read .depth
  | rdAmplitude => exact .read .amplitude
  | rdCmd => exact .read .cmd
  | rdStatus => exact .read .status
  | rdSampleCount => exact .read .sampleCount
  | rdAcc => exact .read .acc
  | rdLfsr => exact .read .lfsr
  | rdPstate => exact .read .pstate
  | wrCtrl v => exact .write .ctrl v
  | wrSeed v => exact .write .seed v
  | wrSymPeriod v => exact .write .symPeriod v
  | wrSampPeriod v => exact .write .sampPeriod v
  | wrDepth v => exact .write .depth v
  | wrAmplitude v => exact .write .amplitude v
  | wrStatus v => exact .write .status v
  | wrId v => exact .write .id v
  | wrSampleCount v => exact .write .sampleCount v
  | wrAcc v => exact .write .acc v
  | wrLfsr v => exact .write .lfsr v
  | wrPstate v => exact .write .pstate v
  | cmdNop => exact .write .cmd 0#32
  | cmdStart => exact .write .cmd 1#32
  | cmdAbort => exact .write .cmd 2#32
  | cmdSoftReset => exact .write .cmd 3#32
  | cmdIllegal v => exact .illegal v
  | badAccessMisaligned off acc => exact .misaligned off acc
  | badAccessUnmapped off acc => exact .unmapped off acc
  | engineStep => exact .internal (.inl rfl)
  | advPrbs31 => exact .internal (.inr (.inl rfl))
  | advFixed20 => exact .internal (.inr (.inr (.inl rfl)))
  | reset => exact .internal (.inr (.inr (.inr rfl)))

/-! ## Round trips -/

/-- Settles O1: each operation with a word comes from one line of the decoder, and its word is on
that line; well-formedness is what puts the operands of the illegal classes there. -/
theorem decodeOfEncode : Obligations.DecodeOfEncode := by
  intro i h hwf hword
  cases origin i with
  | read r =>
    cases (encode_readOf r).symm.trans hword
    exact decode_readHop r
  | write r v =>
    cases (encode_writeOf r v).symm.trans hword
    exact decode_writeHop r v
  | illegal v =>
    cases hword
    rw [decode_writeHop]
    exact commandOf_of_four_le ((wellFormed_cmdIllegal_iff v).mp hwf)
  | misaligned off acc =>
    cases hword
    rw [decode_of_misaligned ((hopOff_accessHop off acc).symm ▸ hwf), hopOff_accessHop,
      hopAccess_accessHop]
  | unmapped off acc =>
    cases hword
    rw [WellFormed, Bool.and_eq_true, Bool.not_eq_true', ← hopOff_accessHop off acc] at hwf
    obtain ⟨aligned, beyond⟩ := hwf
    rw [decode_of_beyondMap aligned beyond, hopOff_accessHop, hopAccess_accessHop]
  | internal hi =>
    cases (encode_of_internal hi).symm.trans hword

theorem encode_decode (h : Hop) :
    encode (decode h) = some (accessHop (hopOff h) (hopAccess h)) := by
  obtain ⟨-, e⟩ | ⟨-, -, e⟩ | ⟨r, hoff, hwr, e⟩ | ⟨r, hoff, hwr, e⟩ := decode_cases h
  · rw [e, encode]
  · rw [e, encode]
  · rw [e, hoff, hopAccess_of_read hwr, encode_readOf, readHop]
  · rw [e, hoff, hopAccess_of_write hwr, encode_writeOf, writeHop]

theorem wellFormed_decode (h : Hop) : WellFormed (decode h) = true := by
  obtain ⟨bad, e⟩ | ⟨aligned, beyond, e⟩ | ⟨r, -, -, e⟩ | ⟨r, -, -, e⟩ := decode_cases h
  · rw [e, WellFormed, bad]
  · rw [e, WellFormed, aligned, beyond]; rfl
  · rw [e, wellFormed_readOf]
  · rw [e, wellFormed_writeOf]

/-- Settles O2: the operation of a word keeps the word's offset and access. -/
theorem encodeOfDecode : Obligations.EncodeOfDecode := by
  intro h
  exact ⟨wellFormed_decode h, (encode_decode h).trans (congrArg some (accessHop_hopAccess h))⟩

/-- Settles O3: the clauses are the decoder's lines, the last that the lines leave no aligned offset
of the map out. -/
theorem decodeFollowsTheOrderedLines : Obligations.DecodeFollowsTheOrderedLines := by
  intro h
  refine ⟨fun bad => ?_, fun aligned beyond => ?_, fun r hoff hwr => ?_, fun r hoff hwr _ => ?_,
    fun hoff hwr => ?_, fun aligned mapped => ?_⟩
  · exact decode_of_misaligned ((misaligned_iff _).mpr bad)
  · exact decode_of_beyondMap ((misaligned_eq_false_iff _).mpr aligned) (decide_eq_true beyond)
  · exact decode_of_read hoff hwr
  · exact decode_of_write hoff hwr
  · exact decode_of_write (r := .cmd) hoff hwr
  · exact exists_eq_regOffset ((misaligned_eq_false_iff _).mpr aligned)
      (decide_eq_false (BitVec.not_lt.mpr mapped))

/-- Settles O4: the command decode sees the whole data word. -/
theorem onlyFourWordsAreCommands : Obligations.OnlyFourWordsAreCommands := by
  intro h hwr hoff
  rw [decode_of_write (r := .cmd) hoff hwr, writeOf]
  generalize hopData h = v
  obtain ⟨rfl, e⟩ | ⟨rfl, e⟩ | ⟨rfl, e⟩ | ⟨rfl, e⟩ | ⟨hge, e⟩ := commandOf_cases v
  case inr.inr.inr.inr =>
    rw [e]
    exact ⟨iff_of_false nofun (ne_of_four_le hge (by decide)),
      iff_of_false nofun (ne_of_four_le hge (by decide)),
      iff_of_false nofun (ne_of_four_le hge (by decide)),
      iff_of_false nofun (ne_of_four_le hge (by decide)), iff_of_true rfl hge⟩
  all_goals decide

/-- Settles O6: the other operations have the word of their line, and a decoded word has one. -/
theorem internalOperationsHaveNoWord : Obligations.InternalOperationsHaveNoWord := by
  have decode_not_internal (h : Hop) : ¬ Internal (decode h) := fun hi =>
    Option.some_ne_none _ ((encode_decode h).symm.trans (encode_of_internal hi))
  refine ⟨fun i => ⟨fun no_word => ?_, encode_of_internal⟩, fun h => ?_⟩
  · cases origin i with
    | read r => cases (encode_readOf r).symm.trans no_word
    | write r v => cases (encode_writeOf r v).symm.trans no_word
    | illegal v => cases no_word
    | misaligned off acc => cases no_word
    | unmapped off acc => cases no_word
    | internal hi => exact hi
  · simpa only [Internal, not_or] using decode_not_internal h

/-- Settles O7: the words are closed. -/
theorem listedWordsDecode : Obligations.ListedWordsDecode := by
  unfold Obligations.ListedWordsDecode
  decide

end Sys2Proof
end

section
/-! The match and mask rows of 30_encoding.md R81. -/

namespace Sys2Proof

variable {h : Hop} {r : Reg}

/-- The mask of most rows: `WR` and `OFF`. -/
def rowMask : Hop := 0x1FF00000000#41

/-- The mask of a command's row, which fixes the data word too (30_encoding.md R75). -/
def commandMask : Hop := 0x1FFFFFFFFFF#41

/-- What a word shows under the mask of a row: whether it writes, and its offset. -/
theorem and_rowMask (h : Hop) : h &&& rowMask = mkHop (hopWr h) (hopOff h) 0#32 := by
  have masked := mkHop_and_rowMask (hopWr h) (hopOff h) (hopData h)
  rwa [mkHop_fields] at masked

theorem and_rowMask_eq_iff (h : Hop) (wr : Bool) (off : Offset) :
    h &&& rowMask = mkHop wr off 0#32 ↔ hopWr h = wr ∧ hopOff h = off := by
  rw [and_rowMask]
  constructor
  · intro same
    exact ⟨by simpa only [hopWr_mkHop] using congrArg hopWr same,
      by simpa only [hopOff_mkHop] using congrArg hopOff same⟩
  · rintro ⟨rfl, rfl⟩
    rfl

theorem and_commandMask (h : Hop) : h &&& commandMask = h := BitVec.and_allOnes

theorem eq_writeHop (hoff : hopOff h = regOffset r) (hwr : hopWr h = true) :
    h = writeHop r (hopData h) := by
  rw [writeHop, accessHop, ← hoff, ← hwr, mkHop_fields]

theorem tableRow_readOf (r : Reg) : tableRow (readOf r) = some (readHop r, rowMask) := by
  cases r <;> decide

theorem tableRow_commandOf (v : Word) :
    tableRow (commandOf v) = some (writeHop .cmd v, commandMask) ∨
      commandOf v = .cmdIllegal v := by
  obtain ⟨rfl, -⟩ | ⟨rfl, -⟩ | ⟨rfl, -⟩ | ⟨rfl, -⟩ | ⟨-, illegal⟩ := commandOf_cases v
  case inr.inr.inr.inr => exact .inr illegal
  all_goals exact .inl (by decide)

theorem tableRow_writeOf_of_ne (hr : r ≠ .cmd) (v : Word) :
    tableRow (writeOf r v) = some (writeHop r 0#32, rowMask) := by
  cases r
  case cmd => exact absurd rfl hr
  all_goals rfl

/-- The row of a write: of its register, of its command, or none. -/
theorem tableRow_writeOf (r : Reg) (v : Word) :
    (tableRow (writeOf r v) = some (writeHop r 0#32, rowMask) ∧
      ∀ w : Word, tableRow (writeOf r w) = tableRow (writeOf r v)) ∨
    tableRow (writeOf r v) = some (writeHop r v, commandMask) ∨
    writeOf r v = .cmdIllegal v := by
  by_cases hr : r = .cmd
  · subst hr
    exact .inr (tableRow_commandOf v)
  · exact .inl ⟨tableRow_writeOf_of_ne hr v, fun w =>
      (tableRow_writeOf_of_ne hr w).trans (tableRow_writeOf_of_ne hr v).symm⟩

/-- A word carries the row of the operation it decodes to. -/
theorem and_mask_of_tableRow_decode {m k : Hop} (hrow : tableRow (decode h) = some (m, k)) :
    h &&& k = m := by
  obtain ⟨-, e⟩ | ⟨-, -, e⟩ | ⟨r, hoff, hwr, e⟩ | ⟨r, hoff, hwr, e⟩ := decode_cases h
  · rw [e] at hrow
    cases hrow
  · rw [e] at hrow
    cases hrow
  · cases (e ▸ tableRow_readOf r).symm.trans hrow
    exact (and_rowMask_eq_iff _ _ _).mpr ⟨hwr, hoff⟩
  · rw [e] at hrow
    obtain ⟨row, -⟩ | row | illegal := tableRow_writeOf r (hopData h)
    · cases row.symm.trans hrow
      exact (and_rowMask_eq_iff _ _ _).mpr ⟨hwr, hoff⟩
    · cases row.symm.trans hrow
      rw [and_commandMask]
      exact eq_writeHop hoff hwr
    · rw [illegal] at hrow
      cases hrow

/-- A word that carries an operation's row decodes to an operation of that row. -/
theorem tableRow_decode_of_and_mask {i : Instr} {m k : Hop} (hrow : tableRow i = some (m, k))
    (carries : h &&& k = m) : tableRow (decode h) = some (m, k) := by
  cases origin i with
  | read r =>
    cases (tableRow_readOf r).symm.trans hrow
    obtain ⟨hwr, hoff⟩ := (and_rowMask_eq_iff _ _ _).mp carries
    rwa [decode_of_read hoff hwr]
  | write r v =>
    obtain ⟨row, same_row⟩ | row | illegal := tableRow_writeOf r v
    · cases row.symm.trans hrow
      obtain ⟨hwr, hoff⟩ := (and_rowMask_eq_iff _ _ _).mp carries
      rwa [decode_of_write hoff hwr, same_row]
    · cases row.symm.trans hrow
      rw [and_commandMask] at carries
      rwa [carries, decode_writeHop]
    · rw [illegal] at hrow
      cases hrow
  | illegal v => cases hrow
  | misaligned off acc => cases hrow
  | unmapped off acc => cases hrow
  | internal hi => cases (tableRow_of_internal hi).symm.trans hrow

/-- The operations that words decode to have a row, the illegal classes apart. -/
theorem tableRow_decode_cases (h : Hop) :
    (∃ m k : Hop, tableRow (decode h) = some (m, k)) ∨
    (∃ v, decode h = .cmdIllegal v) ∨ (∃ off acc, decode h = .badAccessMisaligned off acc) ∨
      (∃ off acc, decode h = .badAccessUnmapped off acc) := by
  obtain ⟨-, e⟩ | ⟨-, -, e⟩ | ⟨r, -, -, e⟩ | ⟨r, -, -, e⟩ := decode_cases h
  · exact .inr (.inr (.inl ⟨_, _, e⟩))
  · exact .inr (.inr (.inr ⟨_, _, e⟩))
  · exact .inl ⟨_, _, e ▸ tableRow_readOf r⟩
  · obtain ⟨row, -⟩ | row | illegal := tableRow_writeOf r (hopData h)
    · exact .inl ⟨_, _, e ▸ row⟩
    · exact .inl ⟨_, _, e ▸ row⟩
    · exact .inr (.inl ⟨_, e.trans illegal⟩)

/-- Settles O5: under its mask a row fixes exactly the fields that the decoder's line reads. -/
theorem tableRowsAreTheDecoder : Obligations.TableRowsAreTheDecoder := by
  refine ⟨fun h m k => and_mask_of_tableRow_decode, fun i h m k => tableRow_decode_of_and_mask,
    fun h no_row => ?_⟩
  obtain ⟨m, k, hrow⟩ | illegal := tableRow_decode_cases h
  · exact absurd (and_mask_of_tableRow_decode hrow) (no_row _ m k hrow)
  · exact illegal

end Sys2Proof
end

section
/-! The assembly of 30_encoding.md R79 and R80. -/

namespace Sys2Proof.Asm

variable {r : Reg} {f : Field} {v lo width : Nat} {fs : List (Field × Nat)}

theorem assemble_rd (t : Target) :
    assemble (.rd t) = some (mkHop false (targetOffset t) 0#32) := rfl

theorem assemble_wr (t : Target) (imm : Imm) :
    assemble (.wr t imm) = (immWord t imm).map (mkHop true (targetOffset t)) := rfl

theorem assemble_wr_value {n : Nat} (t : Target) (fits : n < 2 ^ 32) :
    assemble (.wr t (.value n)) = some (mkHop true (targetOffset t) (BitVec.ofNat 32 n)) := by
  rw [assemble_wr, immWord, if_pos fits, Option.map_some]

theorem assemble_wr_value_too_wide {n : Nat} (t : Target) (wide : 2 ^ 32 ≤ n) :
    assemble (.wr t (.value n)) = none := by
  rw [assemble_wr, immWord, if_neg (Nat.not_lt.mpr wide), Option.map_none]

theorem assemble_wr_fields (r : Reg) (fs : List (Field × Nat)) :
    assemble (.wr (.reg r) (.fields fs)) =
      (fieldsWord r fs).map (mkHop true (regOffset r)) := rfl

/-- The word of a field list is the data of the word it assembles to. -/
theorem assemble_wr_fields_eq_some_iff (w : Word) :
    assemble (.wr (.reg r) (.fields fs)) = some (mkHop true (regOffset r) w) ↔
      fieldsWord r fs = some w := by
  rw [assemble_wr_fields, ← Option.map_some,
    (Option.map_injective (mkHop_injective true (regOffset r))).eq_iff]

/-- Every field lies in the word. -/
theorem fieldBits_le (hf : fieldBits r f = some (lo, width)) : width + lo ≤ 32 := by
  unfold fieldBits at hf
  split at hf <;> cases hf <;> decide

theorem shifted_lt (hf : fieldBits r f = some (lo, width)) (fits : v < 2 ^ width) :
    v * 2 ^ lo < 2 ^ 32 :=
  calc
    v * 2 ^ lo < 2 ^ width * 2 ^ lo := Nat.mul_lt_mul_of_pos_right fits (Nat.two_pow_pos lo)
    _ = 2 ^ (width + lo) := (Nat.pow_add 2 width lo).symm
    _ ≤ 2 ^ 32 := Nat.pow_le_pow_right (by decide) (fieldBits_le hf)

theorem fieldsWord_cons_too_wide (hf : fieldBits r f = some (lo, width)) (wide : 2 ^ width ≤ v) :
    fieldsWord r ((f, v) :: fs) = none := by
  rw [fieldsWord, hf]
  cases fieldsWord r fs with
  | none => rfl
  | some w => exact if_neg (Nat.not_lt.mpr wide)

theorem fieldsWord_cons (hf : fieldBits r f = some (lo, width)) (fits : v < 2 ^ width) {w : Word}
    (rest : fieldsWord r fs = some w) :
    fieldsWord r ((f, v) :: fs) = some (BitVec.ofNat 32 (v * 2 ^ lo) ||| w) := by
  rw [fieldsWord, hf, rest]
  exact if_pos fits

/-- Settles O10: a field list is read from its head, and the head's value lies inside its field. -/
theorem statementsAssemble : Obligations.StatementsAssemble := by
  refine ⟨fun r off n => ⟨assemble_rd _, assemble_rd _, fun fits => ?_, fun wide => ?_⟩,
    fun r f v lo width fs w hf => ⟨fun wide => ?_, fun fits => ⟨shifted_lt hf fits, ?_, ?_⟩⟩⟩
  · exact ⟨assemble_wr_value _ fits, assemble_wr_value _ fits⟩
  · exact ⟨assemble_wr_value_too_wide _ wide, assemble_wr_value_too_wide _ wide⟩
  · rw [assemble_wr_fields, fieldsWord_cons_too_wide hf wide, Option.map_none]
  · rw [assemble_wr_fields_eq_some_iff, fieldsWord_cons hf fits (fs := []) rfl, BitVec.or_zero]
  · rw [assemble_wr_fields_eq_some_iff, assemble_wr_fields_eq_some_iff]
    exact fieldsWord_cons hf fits

theorem assemble_poll (t : Target) (mask val : Word) :
    assemble (.poll t mask val) = assemble (.rd t) := rfl

theorem pollDone_iff (mask val v : Word) : pollDone mask val v = true ↔ v &&& mask = val :=
  beq_iff_eq

/-- Settles O9: the pseudo-instructions without an operand are closed, `poll` is its read. -/
theorem pseudoInstructionsExpand : Obligations.PseudoInstructionsExpand := by
  refine ⟨by decide, by decide, by decide, by decide, by decide, by decide, by decide, by decide,
    fun r mask val v => ⟨?_, pollDone_iff mask val v⟩⟩
  rw [assemble_poll, assemble_rd, targetOffset]

end Sys2Proof.Asm
end

section
/-! What a word that the host issues does next, and the registers read back after their writes
(30_encoding.md R72, R76). -/

namespace Sys2Proof.Machine

/-! ## Table words -/

theorem hopOfTableWord_of_lt {nbits w : Nat} (fits : w % 2 ^ nbits < 2 ^ 41) :
    hopOfTableWord nbits w = .ok (BitVec.ofNat 41 (w % 2 ^ nbits)) := by
  rw [hopOfTableWord, hopOfNat, if_pos fits]

theorem withFetchWord_of_lt (s : State) {nbits w : Nat} (fits : w % 2 ^ nbits < 2 ^ 41) :
    s.withFetchWord nbits w = scheduleHop (BitVec.ofNat 41 (w % 2 ^ nbits)) s := by
  rw [State.withFetchWord, hopOfTableWord_of_lt fits]

theorem step_scheduleHop (h : Hop) (s : State) : step (scheduleHop h s) = exec (decode h) s :=
  step_of_schedule_cons (scheduleHop_schedule h s)

/-- Settles O12: the word is placed at the head of the schedule, and the step takes it off again. -/
theorem tableWordRunsNext : Obligations.TableWordRunsNext := by
  intro s nbits w fits
  constructor
  · rw [decodeTableWord, hopOfTableWord_of_lt fits]
  · rw [withFetchWord_of_lt s fits, step_scheduleHop]

/-! ## Registers read back -/

theorem pselBit_pselOfBit (b : Bool) : pselBit (pselOfBit b) = b := by cases b <;> rfl

/-- Reading a word's low bits back gives the word under their mask. -/
theorem setWidth_extractLsb'_eq_and {n : Nat} {mask : Word}
    (hmask : ∀ i : Fin 32, mask.getLsbD i = decide (i.val < n)) (v : Word) :
    (v.extractLsb' 0 n).setWidth 32 = v &&& mask := by
  apply BitVec.eq_of_getLsbD_eq
  intro i hi
  rw [BitVec.getLsbD_and, hmask ⟨i, hi⟩, BitVec.getLsbD_setWidth, BitVec.getLsbD_extractLsb',
    Nat.zero_add, decide_eq_true hi, Bool.true_and, Bool.and_comm]

theorem seedWord_of_write (s : State) (v : Word) :
    seedWord { s with seed := seedField v } = v &&& 0x7FFFFFFF#32 :=
  setWidth_extractLsb'_eq_and (by decide) v

theorem amplitudeWord_of_write (s : State) (v : Word) :
    amplitudeWord { s with amplitude := amplitudeField v } = v &&& 0x0000FFFF#32 :=
  setWidth_extractLsb'_eq_and (by decide) v

theorem ctrlWord_getLsbD_psel (s : State) : (ctrlWord s).getLsbD 0 = pselBit s.psel := by
  simp only [ctrlWord, BitVec.getLsbD_append, BitVec.getLsbD_ofBool]; simp

theorem ctrlWord_getLsbD_reserved (s : State) (j : Nat) : (ctrlWord s).getLsbD (j + 3) = false := by
  simp only [ctrlWord, BitVec.getLsbD_append, BitVec.getLsbD_ofBool]; simp

/-- The three fields of `CTRL` are its low three bits. -/
theorem ctrlWord_of_write (s : State) (v : Word) :
    ctrlWord { s with psel := ctrlPsel v, ieDone := ctrlIeDone v, ieErr := ctrlIeErr v } =
      v &&& 0x00000007#32 := by
  have hmask (i : Fin 32) : (0x00000007#32).getLsbD i = decide (i.val < 3) := by
    revert i; decide
  apply BitVec.eq_of_getLsbD_eq
  intro i hi
  rw [BitVec.getLsbD_and, hmask ⟨i, hi⟩]
  match i with
  | 0 =>
    rw [ctrlWord_getLsbD_psel, ctrlPsel, pselBit_pselOfBit]
    exact (Bool.and_true _).symm
  | 1 =>
    rw [ctrlWord_getLsbD_ieDone]
    exact (Bool.and_true _).symm
  | 2 =>
    rw [ctrlWord_getLsbD_ieErr]
    exact (Bool.and_true _).symm
  | j + 3 =>
    have reserved : ¬ j + 3 < 3 := by omega
    rw [ctrlWord_getLsbD_reserved, decide_eq_false reserved, Bool.and_false]

/-- A register's read right after an operation that returns nothing to the host. -/
theorem exists_read_after {i : Instr} {s t : State} {r : Reg} {x : Word}
    (hexec : exec i s = .next t) (hreads : t.reads = s.reads) (hvalue : regValue r t = x) :
    ∃ t u : State, exec i s = .next t ∧ exec (readOf r) t = .next u ∧ u.reads = s.reads ++ [x] :=
  ⟨t, readReg r t, hexec, exec_readOf r t, by rw [readReg_reads, hreads, hvalue]⟩

/-- Settles O15: a read assembles the fields where the write took them from, so the mask is that of
the fields. -/
theorem writtenRegistersReadBack : Obligations.WrittenRegistersReadBack := by
  intro s v
  exact ⟨exists_read_after (r := .ctrl) rfl rfl (ctrlWord_of_write s v),
    exists_read_after (r := .seed) rfl rfl (seedWord_of_write s v),
    exists_read_after (r := .symPeriod) rfl rfl rfl,
    exists_read_after (r := .sampPeriod) rfl rfl rfl,
    exists_read_after (r := .depth) rfl rfl rfl,
    exists_read_after (r := .amplitude) rfl rfl (amplitudeWord_of_write s v)⟩

end Sys2Proof.Machine
end

section
/-! What each host access to a register does to the state (40_register_access.md): the words of the
reads, the fields of the writes, and the accesses that are recorded as BAD_ACCESS. -/

namespace Sys2Proof

variable {off : Offset}

theorem hopAccess_mkHop (wr : Bool) (off : Offset) (v : Word) :
    hopAccess (mkHop wr off v) = if wr then .write v else .read := by
  rw [hopAccess, hopWr_mkHop, hopData_mkHop]

theorem decode_mkHop_of_misaligned (wr : Bool) (v : Word) (bad : off.extractLsb' 0 2 ≠ 0#2) :
    decode (mkHop wr off v) = .badAccessMisaligned off (if wr then .write v else .read) := by
  have bad_hop : misaligned (hopOff (mkHop wr off v)) = true := by
    rw [hopOff_mkHop, misaligned_iff]
    exact bad
  rw [decode_of_misaligned bad_hop, hopOff_mkHop, hopAccess_mkHop]

theorem decode_mkHop_of_beyondMap (wr : Bool) (v : Word) (aligned : off.extractLsb' 0 2 = 0#2)
    (beyond : beyondMap off = true) :
    decode (mkHop wr off v) = .badAccessUnmapped off (if wr then .write v else .read) := by
  have aligned_hop : misaligned (hopOff (mkHop wr off v)) = false := by
    rw [hopOff_mkHop, misaligned_eq_false_iff]
    exact aligned
  have beyond_hop : beyondMap (hopOff (mkHop wr off v)) = true := by
    rw [hopOff_mkHop]
    exact beyond
  rw [decode_of_beyondMap aligned_hop beyond_hop, hopOff_mkHop, hopAccess_mkHop]

end Sys2Proof

namespace Sys2Proof.Machine

/-! ## The words of the reads -/

/-- Concatenated fields add up, each at its position. -/
theorem toNat_append_eq_add {m n : Nat} (x : BitVec m) (y : BitVec n) :
    (x ++ y).toNat = x.toNat * 2 ^ n + y.toNat := by
  rw [BitVec.toNat_append, ← Nat.shiftLeft_add_eq_or_of_lt y.isLt, Nat.shiftLeft_eq]

theorem toNat_pselBit (p : Pattern) : (pselBit p).toNat = if p = .fixed20 then 1 else 0 := by
  cases p <;> rfl

theorem ctrlWord_toNat (s : State) :
    (ctrlWord s).toNat =
      (if s.psel = .fixed20 then 1 else 0) + 2 * s.ieDone.toNat + 4 * s.ieErr.toNat := by
  rw [← toNat_pselBit]
  simp only [ctrlWord, toNat_append_eq_add, BitVec.toNat_ofBool, BitVec.toNat_ofNat]
  omega

theorem statusWord_toNat (s : State) :
    (statusWord s).toNat =
      s.busy.toNat + 2 * s.done.toNat + 4 * s.err.toNat + 8 * s.aborted.toNat
        + 256 * s.errcode.toNat := by
  simp only [statusWord, toNat_append_eq_add, BitVec.toNat_ofBool, BitVec.toNat_ofNat]
  omega

theorem pstateWord_toNat (s : State) :
    (pstateWord s).toNat = s.idx.toNat + 256 * s.lvl.toNat := by
  simp only [pstateWord, toNat_append_eq_add, BitVec.toNat_ofBool, BitVec.toNat_ofNat]
  omega

theorem seedWord_toNat (s : State) : (seedWord s).toNat = s.seed.toNat :=
  BitVec.toNat_setWidth_of_le (by decide)

theorem amplitudeWord_toNat (s : State) : (amplitudeWord s).toNat = s.amplitude.toNat :=
  BitVec.toNat_setWidth_of_le (by decide)

theorem lfsrWord_toNat (s : State) : (lfsrWord s).toNat = s.lfsr.toNat :=
  BitVec.toNat_setWidth_of_le (by decide)

/-- A read adds the register's value to the host's reads and changes nothing else. -/
theorem exec_readOf_eq (r : Reg) (s : State) :
    exec (readOf r) s = .next { s with reads := s.reads ++ [regValue r s] } :=
  exec_readOf r s

/-- Settles O13: every read is `readReg` of its register, and the registers with fields are the
sums of them. -/
theorem readsReturnTheRegister : Obligations.ReadsReturnTheRegister := by
  intro s
  exact ⟨exec_readOf_eq .id s, exec_readOf_eq .symPeriod s, exec_readOf_eq .sampPeriod s,
    exec_readOf_eq .depth s, exec_readOf_eq .cmd s, exec_readOf_eq .sampleCount s,
    exec_readOf_eq .acc s,
    ⟨_, exec_readOf_eq .ctrl s, ctrlWord_toNat s⟩,
    ⟨_, exec_readOf_eq .seed s, seedWord_toNat s⟩,
    ⟨_, exec_readOf_eq .amplitude s, amplitudeWord_toNat s⟩,
    ⟨_, exec_readOf_eq .status s, statusWord_toNat s⟩,
    ⟨_, exec_readOf_eq .lfsr s, lfsrWord_toNat s⟩,
    ⟨_, exec_readOf_eq .pstate s, pstateWord_toNat s⟩⟩

/-! ## The fields of the writes -/

theorem ctrlPsel_eq_fixed20_iff (v : Word) : ctrlPsel v = .fixed20 ↔ v.getLsbD 0 = true := by
  rw [ctrlPsel]
  cases v.getLsbD 0 <;> decide

theorem seedField_toNat (v : Word) : (seedField v).toNat = v.toNat % 2 ^ 31 :=
  BitVec.extractLsb'_toNat 0 31 v

theorem amplitudeField_toNat (v : Word) : (amplitudeField v).toNat = v.toNat % 2 ^ 16 :=
  BitVec.extractLsb'_toNat 0 16 v

/-- Settles O14: each write is one record update of its register's fields. -/
theorem configurationWritesSetTheirFields : Obligations.ConfigurationWritesSetTheirFields := by
  intro s v
  exact ⟨⟨_, rfl, rfl, ctrlPsel_eq_fixed20_iff v, rfl⟩, ⟨_, rfl, rfl, seedField_toNat v⟩,
    rfl, rfl, rfl, ⟨_, rfl, rfl, amplitudeField_toNat v⟩⟩

/-- The acknowledge, flag by flag, as the AND of the flag with the strobe's complement. -/
theorem ackStatus_eq (v : Word) (s : State) :
    ackStatus v s = { s with
      done := s.done && !v.getLsbD 1
      err := s.err && !v.getLsbD 2
      errcode := if v.getLsbD 2 then 0#4 else s.errcode
      aborted := s.aborted && !v.getLsbD 3 } := by
  simp only [ackStatus, Bool.if_false_left, Bool.decide_eq_true, Bool.and_comm]
  rfl

/-- Settles O16: a flag stays where it was set and is not written 1. -/
theorem statusWriteClearsWrittenOnes : Obligations.StatusWriteClearsWrittenOnes := by
  intro s v
  exact ⟨_, congrArg Host.Outcome.next (ackStatus_eq v s), rfl, rfl⟩

/-! ## Bad accesses -/

/-- A write that is a BAD_ACCESS changes the error record only. -/
theorem next_badAccess_write (v : Word) (s : State) :
    (.next (badAccess (.write v) s) : Host.Outcome State Fault Refusal) =
      .next { s with err := true, errcode := if s.err then s.errcode else 6#4 } := rfl

/-- A read that is a BAD_ACCESS returns 0 and changes nothing else but the error record. -/
theorem next_badAccess_read (s : State) :
    (.next (badAccess .read s) : Host.Outcome State Fault Refusal) =
      .next { s with reads := s.reads ++ [0#32], err := true,
                     errcode := if s.err then s.errcode else 6#4 } := rfl

/-- Settles O17: all five writes are the bad write, and their words are those of the register
map. -/
theorem readOnlyWritesRecordBadAccess : Obligations.ReadOnlyWritesRecordBadAccess := by
  intro s v
  have bad_write := next_badAccess_write v s
  exact ⟨bad_write, bad_write, bad_write, bad_write, bad_write,
    decode_writeHop .id v, decode_writeHop .sampleCount v, decode_writeHop .acc v,
    decode_writeHop .lfsr v, decode_writeHop .pstate v⟩

/-- Settles O18: both classes are the bad access of their form, and an aligned offset from `0x34` is
beyond the map's last, `0x30`. -/
theorem badOffsetsRecordBadAccess : Obligations.BadOffsetsRecordBadAccess := by
  intro s off v
  have bad_read := next_badAccess_read s
  have bad_write := next_badAccess_write v s
  refine ⟨bad_read, bad_write, bad_read, bad_write, fun bad => ?_, fun aligned above => ?_⟩
  · exact ⟨decode_mkHop_of_misaligned false v bad, decode_mkHop_of_misaligned true v bad⟩
  · have beyond : beyondMap off = true := decide_eq_true (by bv_omega)
    exact ⟨decode_mkHop_of_beyondMap false v aligned beyond,
      decode_mkHop_of_beyondMap true v aligned beyond⟩

end Sys2Proof.Machine
end

section
/-! The commands written to `CMD` (41_commands.md R121 to R125): what each answers, by the condition
of the spec that selects it. -/

namespace Sys2Proof.Machine

/-- Recording an error changes the error record only, and the code only of the first error
(60_exceptions.md R162). -/
theorem raiseErr_eq (c : ErrCause) (s : State) :
    raiseErr c s = { s with err := true, errcode := if s.err then s.errcode else errCode c } := rfl

/-! ## NOP and the illegal class -/

/-- Settles O19: NOP's meaning is the state it acts on. -/
theorem nopChangesNothing : Obligations.NopChangesNothing := by
  intro s
  rfl

theorem exec_cmdIllegal (v : Word) (s : State) :
    exec (.cmdIllegal v) s = .next (raiseErr .illegalCmd s) := rfl

/-- Settles O23: the word selects nothing but the class, and the class records its error. -/
theorem illegalCommandIsRecorded : Obligations.IllegalCommandIsRecorded := by
  intro s v
  constructor
  · rw [exec_cmdIllegal, raiseErr_eq, errCode]
  · intro hge
    exact (decode_writeHop .cmd v).trans (commandOf_of_four_le hge)

/-! ## START -/

theorem exec_cmdStart_of_error {s : State} {c : ErrCause} (h : startError s = some c) :
    exec .cmdStart s =
      .next { s with err := true, errcode := if s.err then s.errcode else errCode c } := by
  rw [exec, execCmdStart, h, ← raiseErr_eq]

theorem exec_cmdStart_of_no_error {s : State} (h : startError s = none) :
    exec .cmdStart s = .next (beginRun s) := by
  rw [exec, execCmdStart, h]

/-- Settles O20: the conditions of each clause are those under which `startError` answers its cause,
or none. -/
theorem startLatchesOrRefuses : Obligations.StartLatchesOrRefuses := by
  intro s
  refine ⟨fun busy => ?_, fun idle samp => ?_, fun idle samp sym => ?_,
    fun idle samp sym depth => ?_, fun idle samp sym depth => ?_⟩
  · have cause : startError s = some .startWhileBusy := by simp [startError, busy]
    exact exec_cmdStart_of_error cause
  · have cause : startError s = some .invalidSampPeriod := by simp [startError, idle, samp]
    exact exec_cmdStart_of_error cause
  · have cause : startError s = some .invalidSymPeriod := by simp [startError, idle, samp, sym]
    exact exec_cmdStart_of_error cause
  · have cause : startError s = some .invalidDepth := by
      simp [startError, idle, samp, sym, depth]
    exact exec_cmdStart_of_error cause
  · have accepted : startError s = none := by simp [startError, idle, samp, sym, depth]
    exact exec_cmdStart_of_no_error accepted

/-! ## ABORT -/

theorem exec_cmdAbort_of_busy {s : State} (hb : s.busy = true) :
    exec .cmdAbort s = .next (abortRun s) := by
  rw [exec, execCmdAbort, if_pos hb]

theorem exec_cmdAbort_of_idle {s : State} (idle : s.busy = false) :
    exec .cmdAbort s = .next s := by
  rw [exec, execCmdAbort, idle, if_neg Bool.false_ne_true]

/-- An engine step that is not enabled is a stutter (43_sample_synthesis.md R140; log 2). -/
theorem exec_engineStep_of_idle {s : State} (idle : s.busy = false) :
    exec .engineStep s = .next s := by
  obtain ⟨-, stutters⟩ | ⟨busy, -⟩ | ⟨busy, -⟩ := execEngineStep_cases s
  · exact stutters
  all_goals exact absurd (idle.symm.trans busy) Bool.false_ne_true

end Sys2Proof.Machine

namespace Sys2Proof.Safety

open Sys2Proof.Machine

variable {s : State} {run : List Transfer}

/-- A run short of its `N` transfers has none with `LAST = 1`. -/
theorem RunInOut.last_eq_false_of_length_lt (h : RunInOut s run)
    (short : run.length < s.wDepth.toNat) : ∀ x ∈ run, x.last = false := by
  obtain ⟨-, -, hlast⟩ := h
  intro x hx
  obtain ⟨n, hn, rfl⟩ := List.getElem_of_mem hx
  rw [hlast n hn, beq_eq_false_iff_ne]
  omega

/-- ABORT takes no part in the run that is in `OUT`. -/
theorem RunInOut.abortRun (h : RunInOut s run) : RunInOut (abortRun s) run := h

/-- During a run, fewer than `N` transfers are in `OUT`. -/
theorem Inv.length_lt_of_busy (h : Inv s) (hb : s.busy = true) (hrun : RunInOut s run) :
    run.length < s.wDepth.toNat := by
  obtain ⟨-, hlength, -⟩ := hrun
  rw [hlength]
  exact h.sampleCount_lt_of_busy hb

/-- Settles O21: ABORT is `abortRun` while busy, which disables the engine and leaves the run in `OUT`
as the invariant has it, short of its last transfer. -/
theorem abortStopsTheRun : Obligations.AbortStopsTheRun := by
  intro s
  refine ⟨fun hb => ?_, fun hb hinv => ?_, exec_cmdAbort_of_idle⟩
  · exact ⟨exec_cmdAbort_of_busy hb, exec_engineStep_of_idle (s := abortRun s) rfl⟩
  · obtain ⟨run, hrun⟩ := hinv.run
    have short := hinv.length_lt_of_busy hb hrun
    exact ⟨run, hrun.abortRun, short, hrun.last_eq_false_of_length_lt short⟩

end Sys2Proof.Safety
end

section
/-! The two single advances (42_pattern_sources.md R130 to R132), the inverse of the PRBS31 advance
and the run that a zero register keeps low (R136). -/

namespace Sys2Proof.Machine

/-- Settles O28: the bits of the new register are those of `prbsNext`. -/
theorem prbsAdvanceShiftsAndInjects : Obligations.PrbsAdvanceShiftsAndInjects := by
  intro s
  exact ⟨advancePrbs31 s, rfl, rfl, prbsNext_getLsbD_zero s.lfsr, prbsNext_getLsbD_succ s.lfsr⟩

/-- The literal of R130, character by character, is its word. -/
theorem fixed20Literal_getD : ∀ j < 20,
    Safety.fixed20Literal.getD j false = (0xA257C#20).getLsbD j := by decide

/-- An index that has moved reads the literal (42_pattern_sources.md R132). -/
theorem pat_idxPlus (idx : BitVec 5) (k : Nat) :
    pat (idxPlus idx k) = Safety.fixed20Literal.getD (idxPlus idx k).toNat false := by
  have in_range : (idxPlus idx k).toNat < 20 :=
    (idxPlus_toNat idx k).trans_lt (Nat.mod_lt _ (by norm_num))
  exact (fixed20Literal_getD _ in_range).symm

/-- Settles O29: the index moves by `idxPlus`, below 20, where `pat` is the literal. -/
theorem fixedAdvanceReadsTheLiteral : Obligations.FixedAdvanceReadsTheLiteral := by
  refine ⟨fun s => ?_, fixed20Literal_getD⟩
  exact ⟨advanceFixed20 s, rfl, rfl, idxPlus_toNat s.idx 1, pat_idxPlus s.idx 1⟩

/-! ## The inverse of the PRBS31 advance -/

/-- The register before an advance: the bits move back, and the bit lost at the top is the injected
one without its other summand, which the advance moved to position 28 (42_pattern_sources.md
R136). -/
def prbsPrev (l : Lfsr) : Lfsr :=
  BitVec.ofBool (l.getLsbD 0 ^^ l.getLsbD 28) ++ l.extractLsb' 1 30

theorem prbsPrev_getLsbD_top (l : Lfsr) :
    (prbsPrev l).getLsbD 30 = (l.getLsbD 0 ^^ l.getLsbD 28) := by
  simp only [prbsPrev, BitVec.getLsbD_append, BitVec.getLsbD_ofBool]; simp

theorem prbsPrev_getLsbD_of_lt (l : Lfsr) {i : Nat} (hi : i < 30) :
    (prbsPrev l).getLsbD i = l.getLsbD (i + 1) := by
  simp only [prbsPrev, BitVec.getLsbD_append, BitVec.getLsbD_extractLsb']
  simp [hi, Nat.add_comm]

theorem prbsPrev_prbsNext (l : Lfsr) : prbsPrev (prbsNext l) = l := by
  apply BitVec.eq_of_getLsbD_eq
  intro i hi
  obtain below | rfl : i < 30 ∨ i = 30 := by omega
  · rw [prbsPrev_getLsbD_of_lt _ below, prbsNext_getLsbD_succ _ _ below]
  · rw [prbsPrev_getLsbD_top, prbsNext_getLsbD_zero, prbsNext_getLsbD_succ l 27 (by norm_num),
      prbsInject, Bool.xor_assoc, Bool.xor_self, Bool.xor_false]

theorem prbsNext_injective : Function.Injective prbsNext :=
  Function.LeftInverse.injective prbsPrev_prbsNext

theorem prbsNext_eq_zero_iff (l : Lfsr) : prbsNext l = 0#31 ↔ l = 0#31 :=
  ⟨fun h => prbsNext_injective (h.trans prbsNext_zero.symm), fun h => h ▸ prbsNext_zero⟩

theorem prbsNext_iterate_ne_zero (n : Nat) {l : Lfsr} (h : l ≠ 0#31) : prbsNext^[n] l ≠ 0#31 :=
  fun hn => h (prbsNext_injective.iterate n (hn.trans (prbsNext_iterate_zero n).symm))

/-! ## A run with a zero register -/

/-- The advances of a step leave a zero register and a low level as they are. -/
theorem advanceMany_of_lfsr_zero {s : State} (hsym : s.wSym ≠ 0#32) (hp : s.wPsel = .prbs31)
    (hlfsr : s.lfsr = 0#31) (hlvl : s.lvl = false) :
    (advanceMany (stepAdvances s) s).lfsr = 0#31 ∧ (advanceMany (stepAdvances s) s).lvl = false := by
  have jump_zero : prbsJump (stepAdvances s) 0#31 = 0#31 := by
    rw [prbsJump_eq_iterate _ (stepAdvances_lt s hsym), prbsNext_iterate_zero]
  unfold advanceMany
  split_ifs
  · exact ⟨hlfsr, hlvl⟩
  · simp [hp, hlfsr, jump_zero]

/-- With a low level before and after the step, the sample is the low level code. -/
theorem stepSample_of_low {s : State} (before : s.lvl = false)
    (after : (advanceMany (stepAdvances s) s).lvl = false) :
    stepSample s = -rha s.wAmpl.toNat 2 := by
  rw [stepSample, after, before]
  rfl

/-- Settles O30: `prbsPrev` is the inverse, so only 0 reaches 0; and a run whose register and level
are 0 emits the low level in a step that leaves both. -/
theorem prbsAdvanceIsInvertible : Obligations.PrbsAdvanceIsInvertible := by
  constructor
  · rintro s t ⟨⟩
    refine ⟨(prbsPrev_prbsNext s.lfsr).symm, prbsNext_eq_zero_iff s.lfsr, fun hzero => ?_⟩
    rw [advancePrbs31_lvl, hzero]
    rfl
  · intro s hb hsym hp hlfsr hlvl
    obtain ⟨lfsr_after, lvl_after⟩ := advanceMany_of_lfsr_zero hsym hp hlfsr hlvl
    refine ⟨engineSample s, execEngineStep_of_busy hb hsym, ?_, ?_, engineSample_err s,
      engineSample_errcode s, lastSample s, ?_⟩
    · rw [engineSample_lfsr, lfsr_after]
    · rw [engineSample_lvl, lvl_after]
    · rw [engineSample_out_eq, stepTransfer, stepSample_of_low hlvl lvl_after]

end Sys2Proof.Machine
end

section
/-! The period of the PRBS31 register (42_pattern_sources.md R135). `2^31 - 1` is prime and is a period
of every state, so it is the least one of every state that the advance moves, which 0 alone is not;
and 31 injected bits in a row are a state, so the bits have the same periods. -/

namespace Sys2Proof.Machine

/-- `x^(2^31 - 1) = 1` modulo the polynomial of the register. -/
theorem polyPowX_period : polyPowX 31 (2 ^ 31 - 1) = 1#31 := by decide +kernel

theorem isPeriodicPt_prbsNext (l : Lfsr) : Function.IsPeriodicPt prbsNext (2 ^ 31 - 1) l := by
  have power_acts := polyAct_powX 31 (2 ^ 31 - 1) (by norm_num) l
  rw [polyPowX_period, polyAct_one] at power_acts
  exact power_acts.symm

/-- Every bit of a register that the advance keeps is the bit below it, so it is the injected bit. -/
theorem getLsbD_of_isFixedPt {l : Lfsr} (h : Function.IsFixedPt prbsNext l) {i : Nat} (hi : i < 31) :
    l.getLsbD i = prbsInject l := by
  induction i with
  | zero => rw [← prbsNext_getLsbD_zero, h]
  | succ i ih =>
    calc l.getLsbD (i + 1) = (prbsNext l).getLsbD (i + 1) := by rw [h]
      _ = l.getLsbD i := prbsNext_getLsbD_succ l i (by omega)
      _ = prbsInject l := ih (by omega)

/-- The advance keeps 0 only: equal bits inject 0. -/
theorem eq_zero_of_isFixedPt {l : Lfsr} (h : Function.IsFixedPt prbsNext l) : l = 0#31 := by
  have injects_zero : prbsInject l = false := by
    have top := getLsbD_of_isFixedPt h (i := 30) (by norm_num)
    have tap := getLsbD_of_isFixedPt h (i := 27) (by norm_num)
    rw [prbsInject, top, tap, Bool.xor_self]
  apply BitVec.eq_of_getLsbD_eq
  intro i hi
  rw [getLsbD_of_isFixedPt h hi, injects_zero, BitVec.getLsbD_zero]

theorem prime_prbs_period : (2 ^ 31 - 1).Prime :=
  lucas_lehmer_sufficiency 31 (by norm_num) (by norm_num)

theorem minimalPeriod_prbsNext {l : Lfsr} (h : l ≠ 0#31) :
    Function.minimalPeriod prbsNext l = 2 ^ 31 - 1 := by
  have : Fact (2 ^ 31 - 1).Prime := ⟨prime_prbs_period⟩
  exact Function.minimalPeriod_eq_prime (isPeriodicPt_prbsNext l) (h ∘ eq_zero_of_isFixedPt)

theorem le_of_isPeriodicPt_prbsNext {l : Lfsr} (h : l ≠ 0#31) {q : Nat} (hq : 0 < q)
    (hper : Function.IsPeriodicPt prbsNext q l) : 2 ^ 31 - 1 ≤ q :=
  (minimalPeriod_prbsNext h).symm.trans_le (hper.minimalPeriod_le hq)

/-- An injected bit is at position `i` after `i` more advances. -/
theorem prbsNext_iterate_getLsbD (l : Lfsr) (n : Nat) {i : Nat} (hi : i < 31) :
    (prbsNext^[n + 1 + i] l).getLsbD i = prbsInject (prbsNext^[n] l) := by
  induction i with
  | zero => exact prbsNext_iterate_bit_zero n l
  | succ i ih =>
    rw [← Nat.add_assoc, ← prbsNext_iterate_succ, prbsNext_getLsbD_succ _ _ (by omega)]
    exact ih (by omega)

/-- After 31 advances the register holds the bits injected by them. -/
theorem prbsNext_iterate_31_getLsbD (l : Lfsr) (n : Nat) {i : Nat} (hi : i < 31) :
    (prbsNext^[n + 31] l).getLsbD i = prbsInject (prbsNext^[n + (30 - i)] l) := by
  have passed : n + 31 = n + (30 - i) + 1 + i := by omega
  rw [passed, prbsNext_iterate_getLsbD l (n + (30 - i)) hi]

/-- A period of the injected bits is one of the state that 31 of them form. -/
theorem isPeriodicPt_of_inject_periodic {l : Lfsr} {q : Nat}
    (h : ∀ j : Nat, prbsInject (prbsNext^[j + q] l) = prbsInject (prbsNext^[j] l)) :
    Function.IsPeriodicPt prbsNext q (prbsNext^[31] l) := by
  rw [Function.IsPeriodicPt, Function.IsFixedPt, ← Function.iterate_add_apply]
  apply BitVec.eq_of_getLsbD_eq
  intro i hi
  calc (prbsNext^[q + 31] l).getLsbD i
      = prbsInject (prbsNext^[q + (30 - i)] l) := prbsNext_iterate_31_getLsbD l q hi
    _ = prbsInject (prbsNext^[30 - i] l) := by rw [Nat.add_comm, h]
    _ = (prbsNext^[31] l).getLsbD i := by
      simpa only [Nat.zero_add] using (prbsNext_iterate_31_getLsbD l 0 hi).symm

/-- Settles O31: every state has the period `2^31 - 1`, a non-zero one no smaller, and a period of
the bits is one of a later state, which is not 0 either. -/
theorem prbsPeriodIsExact : Obligations.PrbsPeriodIsExact := by
  intro seed hseed
  refine ⟨fun j => ?_, fun q hq hbits => ?_, isPeriodicPt_prbsNext seed, fun q hq hlt hper => ?_⟩
  · rw [Function.iterate_add_apply, (isPeriodicPt_prbsNext seed).eq]
  · exact le_of_isPeriodicPt_prbsNext (prbsNext_iterate_ne_zero 31 hseed) hq
      (isPeriodicPt_of_inject_periodic hbits)
  · exact hlt.not_ge (le_of_isPeriodicPt_prbsNext hseed hq hper)

end Sys2Proof.Machine
end

section
/-! The pattern state after `j` single advances (42_pattern_sources.md R134, R137, R138). -/

namespace Sys2Proof.Machine

variable {s : State}

theorem advance_of_prbs31 (hp : s.wPsel = .prbs31) : advance s = advancePrbs31 s := by
  rw [advance, hp]

theorem advance_of_fixed20 (hp : s.wPsel = .fixed20) : advance s = advanceFixed20 s := by
  rw [advance, hp]

theorem advance_iterate_wPsel (j : Nat) (s : State) : (advance^[j] s).wPsel = s.wPsel := by
  induction j with
  | zero => rfl
  | succ j ih => rw [Function.iterate_succ_apply', advance_wPsel, ih]

/-- In a PRBS31 run `j + 1` advances are `j` and a PRBS31 advance. -/
theorem advance_iterate_succ_of_prbs31 (hp : s.wPsel = .prbs31) (j : Nat) :
    advance^[j + 1] s = advancePrbs31 (advance^[j] s) := by
  rw [Function.iterate_succ_apply', advance_of_prbs31 ((advance_iterate_wPsel j s).trans hp)]

/-- In a FIXED20 run `j + 1` advances are `j` and a FIXED20 advance. -/
theorem advance_iterate_succ_of_fixed20 (hp : s.wPsel = .fixed20) (j : Nat) :
    advance^[j + 1] s = advanceFixed20 (advance^[j] s) := by
  rw [Function.iterate_succ_apply', advance_of_fixed20 ((advance_iterate_wPsel j s).trans hp)]

theorem advance_iterate_lfsr_of_prbs31 (hp : s.wPsel = .prbs31) (j : Nat) :
    (advance^[j] s).lfsr = prbsNext^[j] s.lfsr := by
  induction j with
  | zero => rfl
  | succ j ih =>
    rw [advance_iterate_succ_of_prbs31 hp, advancePrbs31_lfsr, ih, prbsNext_iterate_succ]

theorem advance_iterate_idx_of_prbs31 (hp : s.wPsel = .prbs31) (j : Nat) :
    (advance^[j] s).idx = s.idx := by
  induction j with
  | zero => rfl
  | succ j ih => rw [advance_iterate_succ_of_prbs31 hp, advancePrbs31_idx, ih]

theorem advance_iterate_lvl_of_prbs31 (hp : s.wPsel = .prbs31) (hlvl : s.lvl = false) (j : Nat) :
    (advance^[j] s).lvl = Safety.symbolLevel .prbs31 s.lfsr j := by
  cases j with
  | zero => exact hlvl
  | succ j =>
    rw [advance_iterate_succ_of_prbs31 hp, advancePrbs31_lvl, advance_iterate_lfsr_of_prbs31 hp]
    rfl

theorem advance_iterate_lfsr_of_fixed20 (hp : s.wPsel = .fixed20) (j : Nat) :
    (advance^[j] s).lfsr = s.lfsr := by
  induction j with
  | zero => rfl
  | succ j ih => rw [advance_iterate_succ_of_fixed20 hp, advanceFixed20_lfsr, ih]

theorem advance_iterate_idx_of_fixed20 (hp : s.wPsel = .fixed20) (hidx : s.idx = 0#5) (j : Nat) :
    (advance^[j] s).idx.toNat = j % 20 := by
  induction j with
  | zero => rw [Function.iterate_zero_apply, hidx]; rfl
  | succ j ih =>
    rw [advance_iterate_succ_of_fixed20 hp, advanceFixed20_idx, idxPlus_toNat, ih, Nat.mod_add_mod]

theorem advance_iterate_lvl_of_fixed20 (hp : s.wPsel = .fixed20) (hidx : s.idx = 0#5)
    (hlvl : s.lvl = false) (j : Nat) :
    (advance^[j] s).lvl = Safety.symbolLevel .fixed20 s.lfsr j := by
  rw [Safety.symbolLevel, ← advance_iterate_idx_of_fixed20 hp hidx j]
  cases j with
  | zero => rw [Function.iterate_zero_apply, hlvl, hidx]; rfl
  | succ j => rw [advance_iterate_succ_of_fixed20 hp]; exact pat_idxPlus _ 1

/-- Settles O32: the source of the run gives the level by its own law and leaves the other source's
state; the listed symbols of the two seeds are evaluated. -/
theorem advancesFollowTheSymbolLaws : Obligations.AdvancesFollowTheSymbolLaws := by
  refine ⟨fun s j hidx hlvl => ?_, by decide, by decide, by decide⟩
  cases hp : s.wPsel with
  | prbs31 =>
    exact ⟨advance_iterate_lvl_of_prbs31 hp hlvl j, nofun,
      fun _ => (advance_iterate_idx_of_prbs31 hp j).trans hidx⟩
  | fixed20 =>
    exact ⟨advance_iterate_lvl_of_fixed20 hp hidx hlvl j,
      fun _ => ⟨advance_iterate_idx_of_fixed20 hp hidx j, advance_iterate_lfsr_of_fixed20 hp j⟩,
      nofun⟩

end Sys2Proof.Machine
end

section
/-! Which operations reach the elements that belong to a run: the working copies, the accumulator and
the counter, and the pattern state (10_state.md R33 to R36, 42_pattern_sources.md R139). -/

namespace Sys2Proof.Machine

variable {i : Instr} {s t : State}

/-- The working copies of the configuration are the same. -/
def SameWorkingCopies (s t : State) : Prop :=
  t.wSym = s.wSym ∧ t.wSamp = s.wSamp ∧ t.wDepth = s.wDepth ∧ t.wAmpl = s.wAmpl ∧
    t.wPsel = s.wPsel

/-- The accumulator and the sample counter are the same. -/
def SameProgress (s t : State) : Prop := t.acc = s.acc ∧ t.sampleCount = s.sampleCount

/-- The pattern state is the same. -/
def SamePattern (s t : State) : Prop := t.lfsr = s.lfsr ∧ t.idx = s.idx ∧ t.lvl = s.lvl

/-- Nothing that belongs to a run differs. -/
def SameRun (s t : State) : Prop := SameWorkingCopies s t ∧ SameProgress s t ∧ SamePattern s t

theorem SameWorkingCopies.engineSample (s : State) : SameWorkingCopies s (engineSample s) :=
  ⟨engineSample_wSym s, engineSample_wSamp s, engineSample_wDepth s, engineSample_wAmpl s,
    engineSample_wPsel s⟩

theorem SameRun.refl (s : State) : SameRun s s :=
  ⟨⟨rfl, rfl, rfl, rfl, rfl⟩, ⟨rfl, rfl⟩, rfl, rfl, rfl⟩

theorem SameRun.badAccess (acc : Access) (s : State) : SameRun s (badAccess acc s) := by
  cases acc <;> exact SameRun.refl s

/-- What an operation does to the elements of a run: it begins a run or resets the block, or it is
one of the engine's, or it leaves them all. -/
theorem exec_run_cases (h : exec i s = .next t) :
    (i = .cmdStart ∨ i = .cmdSoftReset ∨ i = .reset) ∨
    (i = .engineStep ∧ SameWorkingCopies s t) ∨
    ((i = .advPrbs31 ∨ i = .advFixed20) ∧ SameWorkingCopies s t ∧ SameProgress s t) ∨
    SameRun s t := by
  have unchanged := SameRun.refl s
  have ⟨same_copies, same_progress, _⟩ := unchanged
  rcases exec_next_cases i s t h with
    ⟨r, -, rfl⟩ | ⟨v, write⟩ | ⟨v, -, rfl⟩ | ⟨off, acc, -, rfl⟩ | ⟨-, rfl⟩ | ⟨start, -⟩ |
    ⟨start, -⟩ | ⟨-, -, rfl⟩ | ⟨-, -, rfl⟩ | ⟨resets, -⟩ | ⟨v, -, rfl⟩ | ⟨-, -, rfl⟩ |
    ⟨engine, -, -, rfl⟩ | ⟨advance, rfl⟩ | ⟨advance, rfl⟩
  · exact .inr (.inr (.inr unchanged))
  · rcases write with ⟨-, rfl⟩ | ⟨-, rfl⟩ | ⟨-, rfl⟩ | ⟨-, rfl⟩ | ⟨-, rfl⟩ | ⟨-, rfl⟩ | ⟨-, rfl⟩ <;>
      exact .inr (.inr (.inr unchanged))
  · exact .inr (.inr (.inr unchanged))
  · exact .inr (.inr (.inr (SameRun.badAccess acc s)))
  · exact .inr (.inr (.inr unchanged))
  · exact .inl (.inl start)
  · exact .inl (.inl start)
  · exact .inr (.inr (.inr unchanged))
  · exact .inr (.inr (.inr unchanged))
  · exact .inl (.inr resets)
  · exact .inr (.inr (.inr unchanged))
  · exact .inr (.inr (.inr unchanged))
  · exact .inr (.inl ⟨engine, SameWorkingCopies.engineSample s⟩)
  · exact .inr (.inr (.inl ⟨.inl advance, same_copies, same_progress⟩))
  · exact .inr (.inr (.inl ⟨.inr advance, same_copies, same_progress⟩))

/-- Settles O44: the operations that the statement excludes are those that `exec_run_cases` lets
change an element of the run. -/
theorem hostWritesNeverReachTheEngine : Obligations.HostWritesNeverReachTheEngine := by
  intro i s t h not_start not_soft_reset not_reset
  obtain (start | soft | reset) | ⟨engine, copies⟩ | ⟨advance, copies, progress⟩ |
    ⟨copies, progress, pattern⟩ := exec_run_cases h
  · exact absurd start not_start
  · exact absurd soft not_soft_reset
  · exact absurd reset not_reset
  · exact ⟨copies, fun not_engine => absurd engine not_engine,
      fun not_engine => absurd engine not_engine⟩
  · refine ⟨copies, fun _ => progress, fun _ not_prbs not_fixed => ?_⟩
    obtain prbs | fixed := advance
    · exact absurd prbs not_prbs
    · exact absurd fixed not_fixed
  · exact ⟨copies, fun _ => progress, fun _ _ _ => pattern⟩

end Sys2Proof.Machine
end

section
/-! The phase law, kept by each kind of operation (43_sample_synthesis.md R155,
42_pattern_sources.md R137). -/

namespace Sys2Proof.Machine

variable {s : State}

theorem advanceMany_idx_of_fixed20 (k : Nat) (hp : s.wPsel = .fixed20) (hidx : s.idx.toNat < 20) :
    (advanceMany k s).idx.toNat = (s.idx.toNat + k) % 20 := by
  unfold advanceMany
  split_ifs with hk
  · rw [hk, Nat.add_zero, Nat.mod_eq_of_lt hidx]
  · rw [hp]
    exact idxPlus_toNat s.idx k

/-- A level that is the literal's at the index stays so: the advances move both. -/
theorem advanceMany_lvl_of_fixed20 (k : Nat) (hp : s.wPsel = .fixed20)
    (hlvl : s.lvl = Safety.fixed20Literal.getD s.idx.toNat false) :
    (advanceMany k s).lvl = Safety.fixed20Literal.getD (advanceMany k s).idx.toNat false := by
  unfold advanceMany
  split_ifs
  · exact hlvl
  · rw [hp]
    exact pat_idxPlus s.idx k

end Sys2Proof.Machine

namespace Sys2Proof.Safety

open Sys2Proof.Machine

variable {s t : State}

/-- The phase law speaks only of elements of the run. -/
theorem PhaseOk.of_sameRun (h : PhaseOk s) (same : SameRun s t) : PhaseOk t := by
  obtain ⟨⟨hsym, hsamp, -, -, hpsel⟩, ⟨hacc, hcount⟩, -, hidx, hlvl⟩ := same
  rw [PhaseOk, hsym, hsamp, hpsel, hacc, hcount, hidx, hlvl]
  exact h

/-- Reset leaves no run to speak of. -/
theorem phaseOk_resetBlock (s : State) : PhaseOk (resetBlock s) :=
  fun started => absurd rfl started

/-- Before the first step no symbol has been left: `ACC = T` and the level is symbol 0's. -/
theorem phaseOk_beginRun (s : State) : PhaseOk (beginRun s) := by
  intro _
  refine ⟨?_, fun _ => ⟨rfl, rfl⟩⟩
  rw [beginRun_acc, beginRun_sampleCount, beginRun_wSym]
  simp [idealAcc, advancesIn]

/-- START begins a run, or records an error that is no part of one. -/
theorem PhaseOk.cmdStart (h : PhaseOk s) (hexec : exec .cmdStart s = .next t) : PhaseOk t := by
  cases herror : startError s with
  | some c =>
    cases (exec_cmdStart_of_error herror).symm.trans hexec
    exact h.of_sameRun (SameRun.refl s)
  | none =>
    cases (exec_cmdStart_of_no_error herror).symm.trans hexec
    exact phaseOk_beginRun s

/-- A step makes the advances that take `K(n)` to `K(n+1)`, and writes back the accumulator that
belongs to `K(n+1)`. -/
theorem PhaseOk.engineSample (h : PhaseOk s) (hinv : Inv s) (hb : s.busy = true) :
    PhaseOk (engineSample s) := by
  obtain ⟨sym_ne, samp_ne, -⟩ := hinv.started_of_busy hb
  have hsym := BitVec.toNat_pos_of_ne_zero sym_ne
  have hsamp := BitVec.toNat_pos_of_ne_zero samp_ne
  obtain ⟨hacc, hfixed⟩ := h sym_ne
  intro _
  rw [engineSample_sampleCount_toNat (hinv.sampleCount_lt_of_busy hb), engineSample_wSamp,
    engineSample_wSym, engineSample_wPsel, engineSample_idx, engineSample_lvl]
  constructor
  · rw [engineSample_acc_toNat hsamp hsym hinv.acc, stepAdvances,
      accAfter_idealAcc _ _ _ _ hsamp hsym hacc]
  · intro hp
    obtain ⟨hidx, hlvl⟩ := hfixed hp
    have in_range : s.idx.toNat < 20 := hidx ▸ Nat.mod_lt _ (by norm_num)
    refine ⟨?_, advanceMany_lvl_of_fixed20 _ hp hlvl⟩
    rw [advanceMany_idx_of_fixed20 _ hp in_range, hidx, Nat.mod_add_mod,
      advancesIn_succ _ _ _ _ hsamp hsym hacc, stepAdvances]

theorem PhaseOk.engineStep (h : PhaseOk s) (hinv : Inv s)
    (hexec : exec .engineStep s = .next t) : PhaseOk t := by
  cases hb : s.busy with
  | false => cases (exec_engineStep_of_idle hb).symm.trans hexec; exact h
  | true => rw [eq_engineSample_of_busy hexec hb]; exact h.engineSample hinv hb

/-- No action performs an advance alone (42_pattern_sources.md R139). -/
theorem actionInstr_ne_advance (a : Action) :
    ¬ (actionInstr a = .advPrbs31 ∨ actionInstr a = .advFixed20) := by
  cases a with
  | host hop =>
    obtain ⟨-, no_word⟩ := internalOperationsHaveNoWord
    obtain ⟨-, not_prbs, not_fixed, -⟩ := no_word hop
    exact not_or.mpr ⟨not_prbs, not_fixed⟩
  | engine => nofun
  | reset => nofun

/-- Every operation that an action performs keeps the phase law. -/
theorem PhaseOk.exec {i : Instr} (h : PhaseOk s) (hinv : Inv s)
    (hi : ¬ (i = .advPrbs31 ∨ i = .advFixed20)) (hexec : exec i s = .next t) : PhaseOk t := by
  obtain (rfl | rfl | rfl) | ⟨rfl, -⟩ | ⟨advance, -, -⟩ | same := exec_run_cases hexec
  · exact h.cmdStart hexec
  · cases hexec; exact phaseOk_resetBlock s
  · cases hexec; exact phaseOk_resetBlock s
  · exact h.engineStep hinv hexec
  · exact absurd advance hi
  · exact h.of_sameRun same

/-- Settles O56: a step is the operation of the next action on a state that differs in its schedule
only, and no action is an advance alone. -/
theorem stepKeepsPhase : Obligations.StepKeepsPhase := by
  intro s t hinv hphase hstep
  obtain ⟨-, rfl⟩ | ⟨a, rest, -, hexec⟩ := step_next_cases s t hstep
  · exact hphase
  · have unscheduled : PhaseOk { s with schedule := rest } := hphase
    exact unscheduled.exec hinv.with_config (actionInstr_ne_advance a) hexec

end Sys2Proof.Safety
end

section
/-! The level codes and the edge interpolator against the rationals they round (00_scope.md R9,
43_sample_synthesis.md R147, R148). -/

namespace Sys2Proof.Machine

/-! ## Level codes -/

/-- Settles O34: the quotient `(2*A + 2) / 4` of `rha` is half of `A`, or of `A + 1`. -/
theorem levelCodesAreSymmetric : Obligations.LevelCodesAreSymmetric := by
  intro a
  have high_eq : levelCode a.toNat true = ((2 * a.toNat + 2) / (2 * 2) : Nat) :=
    rha_natCast a.toNat 2
  refine ⟨rfl, rfl, fun even => ?_, fun odd => ?_, fun lvl => ?_⟩
  · rw [high_eq]; omega
  · rw [high_eq]; omega
  · rw [Int.abs_eq_natAbs, natAbs_levelCode]
    exact_mod_cast natAbs_rha_amplitude_le a

/-! ## Edges -/

/-- A common factor of both arguments cancels. -/
theorem rha_mul_left (p : Int) (q : Nat) {c : Nat} (hc : 0 < c) :
    rha (c * p) (c * q) = rha p q := by
  have quotient : (2 * (c * p.natAbs) + c * q) / (2 * (c * q)) = (2 * p.natAbs + q) / (2 * q) := by
    rw [show 2 * (c * p.natAbs) + c * q = c * (2 * p.natAbs + q) by ring,
      show 2 * (c * q) = c * (2 * q) by ring, Nat.mul_div_mul_left _ _ hc]
  have sign : (c : Int) * p < 0 ↔ p < 0 := by
    rw [mul_neg_iff]
    omega
  simp only [rha, Int.natAbs_mul, Int.natAbs_natCast, quotient, sign]

/-- `rha p q` is within one half of the rational `p / q`, and further from zero at a tie. -/
theorem rha_near_div (p : Int) {q : Nat} (hq : 0 < q) :
    |(rha p q : ℚ) - p / q| ≤ 1 / 2 ∧
      (|(rha p q : ℚ) - p / q| = 1 / 2 → |(p : ℚ) / q| < |(rha p q : ℚ)|) := by
  obtain ⟨error_le, further_at_tie⟩ := rha_rounds p hq
  have q_pos : (0 : ℚ) < q := by exact_mod_cast hq
  have scaled_error : ((|p - q * rha p q| : Int) : ℚ) = q * |(rha p q : ℚ) - p / q| := by
    rw [abs_sub_comm (rha p q : ℚ), Int.cast_abs]
    conv_rhs => rw [← abs_of_pos q_pos, ← abs_mul, abs_of_pos q_pos]
    congr 1
    push_cast
    field_simp
  have error_le_rat : 2 * ((|p - q * rha p q| : Int) : ℚ) ≤ q := by exact_mod_cast error_le
  constructor
  · rw [scaled_error] at error_le_rat
    nlinarith
  · intro tie
    have tie_int : 2 * |p - q * rha p q| = q := by
      have tie_rat : 2 * ((|p - q * rha p q| : Int) : ℚ) = q := by rw [scaled_error, tie]; ring
      exact_mod_cast tie_rat
    have further : (|p| : ℚ) < |(q : ℚ) * rha p q| := by exact_mod_cast further_at_tie tie_int
    rw [abs_div, abs_of_pos q_pos, div_lt_iff₀ q_pos]
    rwa [abs_mul, abs_of_pos q_pos, mul_comm] at further

/-- The numerator that an edge sample rounds over `2 * S` (43_sample_synthesis.md R148). -/
def edgeNumerator (ampl samp pre : Nat) (prev : Bool) : Int :=
  if prev then ampl * (2 * (pre : Int) - samp) else ampl * ((samp : Int) - 2 * pre)

theorem edgeCode_eq_rha (ampl samp pre : Nat) (prev : Bool) :
    edgeCode ampl samp pre prev = rha (edgeNumerator ampl samp pre prev) (2 * samp) := by
  cases prev <;> rfl

theorem edgeNumerator_true (ampl samp pre : Nat) :
    edgeNumerator ampl samp pre true = -edgeNumerator ampl samp pre false := by
  simp only [edgeNumerator, if_true, Bool.false_eq_true, if_false]
  ring

/-- The falling edge is the negation of the rising one. -/
theorem edgeCode_true (ampl samp pre : Nat) :
    edgeCode ampl samp pre true = -edgeCode ampl samp pre false := by
  rw [edgeCode_eq_rha, edgeNumerator_true, rha_neg, ← edgeCode_eq_rha]

/-- An edge at the start of its sample shows the new level. -/
theorem edgeCode_zero (ampl : Nat) {samp : Nat} (hs : 0 < samp) (prev : Bool) :
    edgeCode ampl samp 0 prev = levelCode ampl (!prev) := by
  have rising : edgeCode ampl samp 0 false = rha ampl 2 := by
    rw [← rha_mul_left ampl 2 hs, mul_comm samp 2]
    simp [edgeCode, mul_comm]
  cases prev with
  | false => exact rising
  | true => rw [edgeCode_true, rising]; rfl

/-- An edge in the middle of its sample is 0. -/
theorem edgeCode_middle (ampl : Nat) {samp pre : Nat} (middle : 2 * pre = samp) (prev : Bool) :
    edgeCode ampl samp pre prev = 0 := by
  have rising : edgeCode ampl samp pre false = 0 := by
    simp [edgeCode, ← middle]
  cases prev with
  | false => exact rising
  | true => rw [edgeCode_true, rising, neg_zero]

/-- The level as a rational, `V` of 43_sample_synthesis.md R148. -/
def levelValue (ampl : Nat) (lvl : Bool) : ℚ := if lvl then (ampl : ℚ) / 2 else -((ampl : ℚ) / 2)

/-- The value interpolated on an edge is the fraction that `edgeCode` rounds. -/
theorem interpolated_eq_div (ampl : Nat) {samp : Nat} (pre : Nat) (hs : 0 < samp) (prev : Bool) :
    levelValue ampl prev +
        (levelValue ampl (!prev) - levelValue ampl prev) * (1 - (pre : ℚ) / samp) =
      (edgeNumerator ampl samp pre prev : ℚ) / (2 * samp : Nat) := by
  have samp_ne : (samp : ℚ) ≠ 0 := by exact_mod_cast hs.ne'
  cases prev <;>
  · simp only [levelValue, edgeNumerator, Bool.not_false, Bool.not_true, if_true,
      Bool.false_eq_true, if_false]
    push_cast
    field_simp
    ring

/-- Settles O35: the interpolated value is the fraction that `rha` rounds, and the corner cases are
those of its numerator. -/
theorem edgeSamplesInterpolate : Obligations.EdgeSamplesInterpolate := by
  intro a samp pre prev hs V v y
  have v_eq : v = (edgeNumerator a samp pre prev : ℚ) / (2 * samp : Nat) :=
    interpolated_eq_div a pre hs prev
  have y_eq : y = (rha (edgeNumerator a samp pre prev) (2 * samp) : ℚ) :=
    congrArg Int.cast (edgeCode_eq_rha a samp pre prev)
  obtain ⟨near, further_at_tie⟩ := rha_near_div (edgeNumerator a samp pre prev)
    (q := 2 * samp) (by omega)
  rw [v_eq, y_eq]
  refine ⟨near, further_at_tie, ?_, fun middle => edgeCode_middle a middle prev,
    edgeCode_true a samp pre⟩
  rintro rfl
  exact edgeCode_zero a hs prev

end Sys2Proof.Machine
end

section
/-! The advance count of a step (43_sample_synthesis.md R142, R143) and the accumulator after it
(R152). -/

namespace Sys2Proof.Machine

/-- The advance count is the only number that brings the accumulator back and that no smaller one
does. -/
theorem advanceCount_unique {pre samp sym k : Nat} (hsym : 0 < sym)
    (reaches : 0 ≤ accAfter pre samp sym k)
    (least : ∀ j < k, accAfter pre samp sym j < 0) : advanceCount pre samp sym = k := by
  obtain fewer | same | more := Nat.lt_trichotomy (advanceCount pre samp sym) k
  · have := accAfter_nonneg pre samp sym (.inl hsym)
    have := least _ fewer
    omega
  · exact same
  · have := accAfter_neg_of_lt pre samp sym k hsym more
    omega

/-- A step makes an advance exactly where it crosses (43_sample_synthesis.md R142). -/
theorem advanceCount_pos_iff {pre samp sym : Nat} (hsym : 0 < sym) :
    0 < advanceCount pre samp sym ↔ pre < samp := by
  constructor
  · intro some_advance
    by_contra! covers
    rw [advanceCount_of_le _ _ _ covers] at some_advance
    exact absurd some_advance (lt_irrefl 0)
  · intro crosses
    by_contra! none
    have reaches := accAfter_nonneg pre samp sym (.inl hsym)
    rw [Nat.le_zero.mp none, accAfter] at reaches
    omega

/-- One symbol period less than the accumulator after a crossing is below zero. -/
theorem accAfter_sub_neg {pre samp sym : Nat} (hsym : 0 < sym) (crosses : pre < samp) :
    accAfter pre samp sym (advanceCount pre samp sym) - sym < 0 := by
  have some_advance := (advanceCount_pos_iff hsym).mpr crosses
  have before := accAfter_neg_of_lt pre samp sym (advanceCount pre samp sym - 1) hsym (by omega)
  unfold accAfter at before ⊢
  rw [Nat.cast_sub some_advance, Nat.cast_one, sub_mul, one_mul] at before
  linarith

/-- Where the step crosses, the advances are `ceil((S - pre) / T)` (43_sample_synthesis.md R143). -/
theorem advanceCount_eq_ceil {pre samp sym : Nat} (hsym : 0 < sym) (crosses : pre < samp) :
    (advanceCount pre samp sym : Int) = ⌈((samp : ℚ) - pre) / sym⌉ := by
  have sym_pos : (0 : ℚ) < sym := by exact_mod_cast hsym
  have reaches := accAfter_nonneg pre samp sym (.inl hsym)
  have before := accAfter_sub_neg hsym crosses
  unfold accAfter at reaches before
  have reaches_rat : (0 : ℚ) ≤ pre - samp + advanceCount pre samp sym * sym := by
    exact_mod_cast reaches
  have before_rat : (pre : ℚ) - samp + advanceCount pre samp sym * sym - sym < 0 := by
    exact_mod_cast before
  refine (Int.ceil_eq_iff.mpr ⟨?_, ?_⟩).symm
  · rw [lt_div_iff₀ sym_pos]
    push_cast
    linarith
  · rw [div_le_iff₀ sym_pos]
    push_cast
    linarith

/-- Settles O36: after the count the accumulator is not below zero, before its last advance it
is. -/
theorem advanceCountIsLeast : Obligations.AdvanceCountIsLeast := by
  intro s hsym
  have sym_pos := BitVec.toNat_pos_of_ne_zero hsym
  exact ⟨accAfter_nonneg _ _ _ (.inl sym_pos),
    fun j hj => accAfter_neg_of_lt _ _ _ j sym_pos hj,
    advanceCount_of_le _ _ _,
    advanceCount_eq_ceil sym_pos⟩

end Sys2Proof.Machine
end

section
/-! One engine step: idle, its frame, and the range of what it emits (43_sample_synthesis.md R140,
R149, R156). -/

namespace Sys2Proof.Machine

variable {s : State}

/-- Settles O38: a step that is not enabled is the stutter of `exec_engineStep_of_idle`. -/
theorem idleEngineChangesNothing : Obligations.IdleEngineChangesNothing :=
  fun _ => exec_engineStep_of_idle

theorem advanceMany_lfsr_of_fixed20 (k : Nat) (hp : s.wPsel = .fixed20) :
    (advanceMany k s).lfsr = s.lfsr := by
  unfold advanceMany
  rw [hp]
  split_ifs <;> rfl

/-- The advances change the pattern state only. -/
theorem advanceMany_eq (k : Nat) (s : State) :
    advanceMany k s = { s with lfsr := (advanceMany k s).lfsr, idx := (advanceMany k s).idx,
                               lvl := (advanceMany k s).lvl } := by
  unfold advanceMany
  split_ifs
  · rfl
  · cases s.wPsel <;> rfl

/-- An engine step, field by field (43_sample_synthesis.md R140). -/
theorem engineSample_eq (s : State) :
    engineSample s =
      { advanceMany (stepAdvances s) s with
        acc := BitVec.ofInt 32 (accAfter s.acc.toNat s.wSamp.toNat s.wSym.toNat (stepAdvances s))
        out := s.out ++ [stepTransfer s]
        sampleCount := s.sampleCount + 1#32
        busy := if lastSample s then false else s.busy
        done := if lastSample s then true else s.done } := by
  rw [← engineSample_acc, ← engineSample_out_eq, ← engineSample_sampleCount, ← engineSample_busy,
    ← engineSample_done]
  rfl

/-- An engine step changes the elements listed and no other. -/
theorem engineSample_frame (s : State) :
    engineSample s =
      { s with acc := (engineSample s).acc, lfsr := (engineSample s).lfsr,
               idx := (engineSample s).idx, lvl := (engineSample s).lvl,
               out := (engineSample s).out, sampleCount := (engineSample s).sampleCount,
               busy := (engineSample s).busy, done := (engineSample s).done } := by
  rw [engineSample_eq, advanceMany_eq]

/-- Settles O39: an idle step changes nothing, and an enabled one has the frame of `engineSample`,
whose advances leave the unused source's state. -/
theorem engineStepFrame : Obligations.EngineStepFrame := by
  intro s t h
  cases hb : s.busy with
  | false =>
    cases (exec_engineStep_of_idle hb).symm.trans h
    exact ⟨rfl, fun _ => rfl, fun _ => rfl⟩
  | true =>
    rw [eq_engineSample_of_busy h hb]
    refine ⟨engineSample_frame s, fun hp => ?_, fun hp => ?_⟩
    · rw [engineSample_idx, advanceMany_idx_of_prbs31 _ hp]
    · rw [engineSample_lfsr, advanceMany_lfsr_of_fixed20 _ hp]

theorem stepSample_between_levels (s : State) :
    levelCode s.wAmpl.toNat false ≤ stepSample s ∧ stepSample s ≤ levelCode s.wAmpl.toNat true := by
  have small := natAbs_sampleCode_le s.wAmpl.toNat s.wSamp.toNat s.acc.toNat s.lvl
    (advanceMany (stepAdvances s) s).lvl (acc_lt_of_lvl_ne s)
  have high_nonneg := rha_natCast_nonneg s.wAmpl.toNat 2
  change (stepSample s).natAbs ≤ _ at small
  simp only [levelCode, if_true, Bool.false_eq_true, if_false]
  omega

/-- A sample fits 18 bits, whose sign extension is its 32-bit form (30_encoding.md R73). -/
theorem ofInt_eq_signExtend {y : Int} (low : -32768 ≤ y) (high : y ≤ 32768) :
    BitVec.ofInt 32 y = (BitVec.ofInt 18 y).signExtend 32 := by
  apply BitVec.eq_of_toInt_eq
  rw [BitVec.toInt_signExtend_of_le (by norm_num),
    BitVec.toInt_ofInt_eq_self (by norm_num) (by omega) (by omega),
    BitVec.toInt_ofInt_eq_self (by norm_num) (by omega) (by omega)]

/-- Settles O40: the transfer of an enabled step is `stepTransfer`, whose sample no level code and
no 32-bit form cuts off. -/
theorem samplesStayBetweenTheLevels : Obligations.SamplesStayBetweenTheLevels := by
  intro s t h hb
  rw [eq_engineSample_of_busy h hb]
  obtain ⟨above_low, below_high⟩ := stepSample_between_levels s
  have small := natAbs_stepSample_le s
  have low : -32768 ≤ stepSample s := by omega
  have high : stepSample s ≤ 32768 := by omega
  exact ⟨stepSample s, engineSample_out_eq s, above_low, below_high, low, high,
    stepTransfer_data_toInt s, ofInt_eq_signExtend low high⟩

end Sys2Proof.Machine
end

section
/-! The engine step as the loop of 43_sample_synthesis.md R140, run turn by turn. -/

namespace Sys2Proof.Safety

open Sys2Proof.Machine

variable {s : State}

/-- A loop that is below zero before each of its first `k` turns and not after them makes exactly
those turns. -/
theorem advanceLoop_eq {k : Nat} (s : State) (a : Int) {fuel : Nat} (enough : k ≤ fuel)
    (reaches : 0 ≤ a + k * (s.wSym.toNat : Int))
    (before : ∀ j < k, a + j * (s.wSym.toNat : Int) < 0) :
    advanceLoop fuel a s = some (a + k * (s.wSym.toNat : Int), advance^[k] s) := by
  induction k generalizing s a fuel with
  | zero =>
    have ended : ¬ a < 0 := by simpa using reaches
    cases fuel <;> simp [advanceLoop, ended]
  | succ k ih =>
    obtain ⟨fuel, rfl⟩ := Nat.exists_eq_add_of_le' (show 1 ≤ fuel by omega)
    have turns : a < 0 := by simpa using before 0 k.succ_pos
    have shift (j : Nat) : a + s.wSym.toNat + j * (s.wSym.toNat : Int) =
        a + (j + 1 : Nat) * (s.wSym.toNat : Int) := by push_cast; ring
    have rest := ih (advance s) (a + s.wSym.toNat) (fuel := fuel) (by omega)
      (by rw [advance_wSym, shift]; exact reaches)
      (fun j hj => by rw [advance_wSym, shift]; exact before (j + 1) (by omega))
    rw [advance_wSym, shift] at rest
    rw [advanceLoop, if_pos turns, rest, Function.iterate_succ_apply]

/-- The number of turns needs no more fuel than `W_SAMP`, and fits the jump of the model. -/
theorem stepAdvances_le_wSamp (ends : s.wSym ≠ 0#32 ∨ s.wSamp.toNat ≤ s.acc.toNat) :
    stepAdvances s ≤ s.wSamp.toNat := by
  obtain hsym | covers := ends
  · exact advanceCount_le _ _ _ (BitVec.toNat_pos_of_ne_zero hsym)
  · rw [stepAdvances, advanceCount_of_le _ _ _ covers]
    exact Nat.zero_le _

/-- The loop of an engine step makes the model's advances and ends with its accumulator. -/
theorem advanceLoop_stepAdvances {fuel : Nat}
    (ends : s.wSym ≠ 0#32 ∨ s.wSamp.toNat ≤ s.acc.toNat) (enough : s.wSamp.toNat ≤ fuel) :
    advanceLoop fuel ((s.acc.toNat : Int) - s.wSamp.toNat) s =
      some (accAfter s.acc.toNat s.wSamp.toNat s.wSym.toNat (stepAdvances s),
        advanceMany (stepAdvances s) s) := by
  have turns_le := stepAdvances_le_wSamp ends
  have turns_lt : stepAdvances s < 2 ^ 32 := turns_le.trans_lt s.wSamp.isLt
  rw [advanceMany_eq_iterate _ turns_lt]
  refine advanceLoop_eq s _ (turns_le.trans enough) ?_ ?_
  · exact accAfter_nonneg _ _ _ (ends.imp_left BitVec.toNat_pos_of_ne_zero)
  · obtain hsym | covers := ends
    · exact fun j hj => accAfter_neg_of_lt _ _ _ j (BitVec.toNat_pos_of_ne_zero hsym) hj
    · rw [stepAdvances, advanceCount_of_le _ _ _ covers]
      nofun

/-- The four cases of 43_sample_synthesis.md R145 to R148 are the model's steady and edge
samples. -/
theorem sampleOf_eq_sampleCode (ampl samp pre : Nat) (prev lvl : Bool) :
    sampleOf ampl samp pre prev lvl = sampleCode ampl samp pre prev lvl := by
  cases prev <;> cases lvl <;> rfl

/-- The pseudocode, with its loop run turn by turn, ends in the state of `engineSample`. -/
theorem engineStepByTurns_eq {fuel : Nat} (ends : s.wSym ≠ 0#32 ∨ s.wSamp.toNat ≤ s.acc.toNat)
    (enough : s.wSamp.toNat ≤ fuel) : engineStepByTurns fuel s = some (engineSample s) := by
  have counted : BitVec.ofNat 32 (s.sampleCount.toNat + 1) = s.sampleCount + 1#32 := by
    rw [BitVec.ofNat_add, BitVec.ofNat_toNat, BitVec.setWidth_eq]
  rw [engineStepByTurns, advanceLoop_stepAdvances ends enough, Option.map_some, engineSample_eq]
  simp only [counted, sampleOf_eq_sampleCode, advanceMany_out, advanceMany_busy, advanceMany_done]
  rfl

theorem loopDiverges_of_covers (covers : s.wSamp.toNat ≤ s.acc.toNat) : loopDiverges s = false := by
  simp [loopDiverges, covers]

/-- Settles O37: both are `engineSample`, the pseudocode by making the turns that the model counts
in advance. -/
theorem engineStepIsTheLoop : Obligations.EngineStepIsTheLoop := by
  intro s fuel hb ends enough
  refine ⟨engineSample s, engineStepByTurns_eq ends enough, ?_⟩
  have no_divergence : loopDiverges s = false :=
    ends.elim loopDiverges_of_wSym_ne loopDiverges_of_covers
  simp [exec, execEngineStep, hb, no_divergence]

end Sys2Proof.Safety
end

section
/-! The accumulator of one engine step: its bounds (43_sample_synthesis.md R152) and what scaling
the periods does (R153). -/

namespace Sys2Proof.Machine

variable {s : State} {c : Nat}

/-! ## Bounds -/

/-- From any accumulator of 32 bits the one after the step fits 32 bits again. -/
theorem accAfter_lt_two_pow (s : State) (hsym : 0 < s.wSym.toNat) :
    accAfter s.acc.toNat s.wSamp.toNat s.wSym.toNat (stepAdvances s) < 2 ^ 32 := by
  have acc_lt := s.acc.isLt
  have sym_lt := s.wSym.isLt
  unfold stepAdvances
  obtain crosses | covers := Nat.lt_or_ge s.acc.toNat s.wSamp.toNat
  · have := accAfter_sub_neg hsym crosses
    omega
  · rw [advanceCount_of_le _ _ _ covers, accAfter]
    omega

/-- Nothing of the accumulator is lost in 32 bits, whatever it was before the step. -/
theorem engineSample_acc_toNat_of_wSym_ne (hsym : s.wSym ≠ 0#32) :
    ((engineSample s).acc.toNat : Int) =
      accAfter s.acc.toNat s.wSamp.toNat s.wSym.toNat (stepAdvances s) := by
  have sym_pos := BitVec.toNat_pos_of_ne_zero hsym
  have fits := accAfter_lt_two_pow s sym_pos
  have nonneg := accAfter_nonneg s.acc.toNat s.wSamp.toNat s.wSym.toNat (.inl sym_pos)
  rw [engineSample_acc, BitVec.toNat_ofInt]
  unfold stepAdvances at fits ⊢
  omega

/-- A step makes at most `ceil(S / T)` advances. -/
theorem advanceCount_le_ceil {pre samp sym : Nat} (hsym : 0 < sym) :
    (advanceCount pre samp sym : Int) ≤ ⌈(samp : ℚ) / sym⌉ := by
  obtain crosses | covers := Nat.lt_or_ge pre samp
  · have pre_nonneg : (0 : ℚ) ≤ pre := pre.cast_nonneg
    rw [advanceCount_eq_ceil hsym crosses]
    gcongr
    linarith
  · rw [advanceCount_of_le _ _ _ covers]
    exact Int.ceil_nonneg (by positivity)

/-- Where a symbol is longer than a sample, a step makes at most one advance. -/
theorem advanceCount_le_one {pre samp sym : Nat} (longer : samp < sym) :
    advanceCount pre samp sym ≤ 1 := by
  by_contra! two
  have before := accAfter_neg_of_lt pre samp sym 1 (by omega) two
  unfold accAfter at before
  omega

/-- The fraction `1 - pre / S` of a crossing is positive and at most 1. -/
theorem edgeFraction_bounds {pre samp : Nat} (crosses : pre < samp) :
    0 < 1 - (pre : ℚ) / samp ∧ 1 - (pre : ℚ) / samp ≤ 1 := by
  have samp_pos : (0 : ℚ) < samp := by exact_mod_cast (Nat.zero_le pre).trans_lt crosses
  have crosses_rat : (pre : ℚ) < samp := by exact_mod_cast crosses
  have below_one : (pre : ℚ) / samp < 1 := (div_lt_one samp_pos).mpr crosses_rat
  have nonneg : (0 : ℚ) ≤ (pre : ℚ) / samp := by positivity
  constructor <;> linarith

/-- Settles O41: the working copies of a run are positive, so each part is a law of `advanceCount`
and `accAfter`. -/
theorem accumulatorStaysInBounds : Obligations.AccumulatorStaysInBounds := by
  intro s t hinv hb h
  rw [eq_engineSample_of_busy h hb]
  obtain ⟨sym_ne, samp_ne, -⟩ := hinv.started_of_busy hb
  have sym_pos := BitVec.toNat_pos_of_ne_zero sym_ne
  have samp_pos := BitVec.toNat_pos_of_ne_zero samp_ne
  have acc_eq := engineSample_acc_toNat_of_wSym_ne sym_ne
  have acc_lt := accAfter_lt _ _ _ samp_pos sym_pos hinv.acc
  have acc_isLt := s.acc.isLt
  have samp_isLt := s.wSamp.isLt
  refine ⟨hinv.acc, ?_, acc_eq, (advanceCount_pos_iff sym_pos).mp, fun changes => ?_,
    advanceCount_le_ceil sym_pos, advanceCount_le_one, by omega, by omega⟩
  · unfold stepAdvances at acc_eq
    omega
  · rw [engineSample_lvl] at changes
    exact edgeFraction_bounds (acc_lt_of_lvl_ne s changes)

/-! ## Scaling -/

theorem accAfter_mul_left (c pre samp sym k : Nat) :
    accAfter (c * pre) (c * samp) (c * sym) k = c * accAfter pre samp sym k := by
  unfold accAfter
  push_cast
  ring

theorem advanceCount_mul_left {pre samp sym : Nat} (hc : 0 < c) (hsym : 0 < sym) :
    advanceCount (c * pre) (c * samp) (c * sym) = advanceCount pre samp sym := by
  have c_pos : (0 : Int) < c := by exact_mod_cast hc
  apply advanceCount_unique (Nat.mul_pos hc hsym)
  · rw [accAfter_mul_left]
    exact mul_nonneg c_pos.le (accAfter_nonneg _ _ _ (.inl hsym))
  · intro j hj
    rw [accAfter_mul_left]
    exact mul_neg_of_pos_of_neg c_pos (accAfter_neg_of_lt _ _ _ j hsym hj)

theorem edgeNumerator_mul_left (ampl c samp pre : Nat) (prev : Bool) :
    edgeNumerator ampl (c * samp) (c * pre) prev = c * edgeNumerator ampl samp pre prev := by
  cases prev <;>
  · simp only [edgeNumerator, if_true, Bool.false_eq_true, if_false]
    push_cast
    ring

theorem sampleCode_mul_left (ampl samp pre : Nat) (prev lvl : Bool) (hc : 0 < c) :
    sampleCode ampl (c * samp) (c * pre) prev lvl = sampleCode ampl samp pre prev lvl := by
  unfold sampleCode
  rw [edgeCode_eq_rha, edgeNumerator_mul_left, show 2 * (c * samp) = c * (2 * samp) by ring,
    rha_mul_left _ _ hc, ← edgeCode_eq_rha]

/-- The state with both periods and the accumulator `c` times as large. -/
def scaledBy (c : Nat) (s : State) : State :=
  { s with wSym := BitVec.ofNat 32 (c * s.wSym.toNat),
           wSamp := BitVec.ofNat 32 (c * s.wSamp.toNat),
           acc := BitVec.ofNat 32 (c * s.acc.toNat) }

/-- The scaled values fit their registers. -/
def FitsScaledBy (c : Nat) (s : State) : Prop :=
  c * s.wSym.toNat < 2 ^ 32 ∧ c * s.wSamp.toNat < 2 ^ 32 ∧ c * s.acc.toNat < 2 ^ 32

theorem scaledBy_toNat (fits : FitsScaledBy c s) :
    (scaledBy c s).wSym.toNat = c * s.wSym.toNat ∧
      (scaledBy c s).wSamp.toNat = c * s.wSamp.toNat ∧
      (scaledBy c s).acc.toNat = c * s.acc.toNat := by
  obtain ⟨sym_fits, samp_fits, acc_fits⟩ := fits
  simp only [scaledBy, BitVec.toNat_ofNat, Nat.mod_eq_of_lt sym_fits, Nat.mod_eq_of_lt samp_fits,
    Nat.mod_eq_of_lt acc_fits, and_self]

theorem scaledBy_wSym_ne (hc : 0 < c) (hsym : s.wSym ≠ 0#32) (fits : FitsScaledBy c s) :
    (scaledBy c s).wSym ≠ 0#32 := by
  obtain ⟨sym_eq, -, -⟩ := scaledBy_toNat fits
  have scaled_pos := Nat.mul_pos hc (BitVec.toNat_pos_of_ne_zero hsym)
  intro zero
  rw [zero] at sym_eq
  exact scaled_pos.ne sym_eq

theorem stepAdvances_scaledBy (hc : 0 < c) (hsym : s.wSym ≠ 0#32) (fits : FitsScaledBy c s) :
    stepAdvances (scaledBy c s) = stepAdvances s := by
  obtain ⟨sym_eq, samp_eq, acc_eq⟩ := scaledBy_toNat fits
  rw [stepAdvances, sym_eq, samp_eq, acc_eq,
    advanceCount_mul_left hc (BitVec.toNat_pos_of_ne_zero hsym), stepAdvances]

/-- The advances look at neither period nor at the accumulator. -/
theorem advanceMany_scaledBy (c k : Nat) (s : State) :
    advanceMany k (scaledBy c s) = scaledBy c (advanceMany k s) := by
  have same_source : (scaledBy c s).wPsel = s.wPsel := rfl
  unfold advanceMany
  rw [same_source]
  split_ifs
  · rfl
  · cases s.wPsel <;> rfl

/-- The pattern state after a step of the scaled state. -/
theorem advanceMany_stepAdvances_scaledBy (hc : 0 < c) (hsym : s.wSym ≠ 0#32)
    (fits : FitsScaledBy c s) :
    advanceMany (stepAdvances (scaledBy c s)) (scaledBy c s) =
      scaledBy c (advanceMany (stepAdvances s) s) := by
  rw [stepAdvances_scaledBy hc hsym fits, advanceMany_scaledBy]

theorem stepTransfer_scaledBy (hc : 0 < c) (hsym : s.wSym ≠ 0#32) (fits : FitsScaledBy c s) :
    stepTransfer (scaledBy c s) = stepTransfer s := by
  obtain ⟨-, samp_eq, acc_eq⟩ := scaledBy_toNat fits
  have same_sample : stepSample (scaledBy c s) = stepSample s := by
    rw [stepSample, advanceMany_stepAdvances_scaledBy hc hsym fits, samp_eq, acc_eq]
    exact sampleCode_mul_left _ _ _ _ _ hc
  rw [stepTransfer, same_sample]
  rfl

theorem engineSample_scaledBy_acc_toNat (hc : 0 < c) (hsym : s.wSym ≠ 0#32)
    (fits : FitsScaledBy c s) :
    (engineSample (scaledBy c s)).acc.toNat = c * (engineSample s).acc.toNat := by
  obtain ⟨sym_eq, samp_eq, acc_eq⟩ := scaledBy_toNat fits
  zify
  rw [engineSample_acc_toNat_of_wSym_ne (scaledBy_wSym_ne hc hsym fits),
    engineSample_acc_toNat_of_wSym_ne hsym, stepAdvances_scaledBy hc hsym fits, sym_eq, samp_eq,
    acc_eq, accAfter_mul_left]

/-- Settles O42: the scaled step makes the same advances, so each element of its pattern state and
its sample is that of the step, and only the accumulator carries the factor. -/
theorem onlyThePeriodRatioMatters : Obligations.OnlyThePeriodRatioMatters := by
  intro s c hc hb hsym sym_fits samp_fits acc_fits s'
  have fits : FitsScaledBy c s := ⟨sym_fits, samp_fits, acc_fits⟩
  have pattern := advanceMany_stepAdvances_scaledBy hc hsym fits
  refine ⟨engineSample s, engineSample (scaledBy c s), execEngineStep_of_busy hb hsym,
    execEngineStep_of_busy (s := scaledBy c s) hb (scaledBy_wSym_ne hc hsym fits),
    stepAdvances_scaledBy hc hsym fits, ?_, ?_, ?_, ?_,
    engineSample_scaledBy_acc_toNat hc hsym fits⟩
  · rw [engineSample_out_eq, stepTransfer_scaledBy hc hsym fits, engineSample_out_eq]
    rfl
  · rw [engineSample_lvl, pattern, engineSample_lvl]
    rfl
  · rw [engineSample_idx, pattern, engineSample_idx]
    rfl
  · rw [engineSample_lfsr, pattern, engineSample_lfsr]
    rfl

end Sys2Proof.Machine
end

section
/-! The step in which a symbol starts (43_sample_synthesis.md R155). -/

namespace Sys2Proof.Safety

open Sys2Proof.Machine

/-- Symbol `j` has not started before step `n` exactly where its start time `j*T` is not before that
of sample `n`. -/
theorem advancesIn_lt_iff {n samp sym j : Nat} (hs : 0 < samp) (hm : 0 < sym) (hj : 1 ≤ j) :
    advancesIn n samp sym < j ↔ n * samp ≤ j * sym := by
  constructor
  · intro not_started
    exact (le_advancesIn n samp sym hm).trans (Nat.mul_le_mul_right sym not_started)
  · intro start_le
    rcases Nat.eq_zero_or_pos n with rfl | hn
    · exact hj
    · exact Nat.lt_of_mul_lt_mul_right ((advancesIn_lt n samp sym hn hs hm).trans_le start_le)

/-- Settles O43: the step's advances are those from `K(n)` to `K(n+1)`, and the `j`-th is among them
exactly if `n*S ≤ j*T < (n+1)*S`. -/
theorem everyEdgeFallsInItsSample : Obligations.EveryEdgeFallsInItsSample := by
  intro s j hinv hphase hb hj
  obtain ⟨sym_ne, samp_ne, -⟩ := hinv.started_of_busy hb
  have hm := BitVec.toNat_pos_of_ne_zero sym_ne
  have hs := BitVec.toNat_pos_of_ne_zero samp_ne
  obtain ⟨hacc, -⟩ := hphase sym_ne
  have started (n : Nat) : j ≤ advancesIn n s.wSamp.toNat s.wSym.toNat ↔
      j * s.wSym.toNat < n * s.wSamp.toNat := by
    rw [← not_lt, advancesIn_lt_iff hs hm hj, not_le]
  rw [stepAdvances, ← advancesIn_succ _ _ _ _ hs hm hacc, advancesIn_lt_iff hs hm hj, started,
    ← Nat.le_div_iff_mul_le hs, ← Nat.div_lt_iff_lt_mul hs]
  omega

end Sys2Proof.Safety
end

section
/-! The operations that leave a run alone: they complete, and change no element of the run
(70_reset_and_hazards.md R190). -/

namespace Sys2Proof.Machine

variable {i : Instr} {s t : State}

/-- Every operation but an engine step completes in every state (60_exceptions.md R166). -/
theorem exec_completes (s : State) (hi : i ≠ .engineStep) : ∃ t : State, exec i s = .next t := by
  cases i with
  | cmdStart =>
    cases herror : startError s with
    | some c => exact ⟨_, exec_cmdStart_of_error herror⟩
    | none => exact ⟨_, exec_cmdStart_of_no_error herror⟩
  | cmdAbort =>
    cases hb : s.busy with
    | true => exact ⟨_, exec_cmdAbort_of_busy hb⟩
    | false => exact ⟨_, exec_cmdAbort_of_idle hb⟩
  | engineStep => exact absurd rfl hi
  | _ => exact ⟨_, rfl⟩

/-- Nothing that a run shows or needs differs, the actions still to come among it. -/
def LeavesRun (s t : State) : Prop :=
  SameRun s t ∧ t.busy = s.busy ∧ t.out = s.out ∧ t.schedule = s.schedule

theorem LeavesRun.refl (s : State) : LeavesRun s s := ⟨SameRun.refl s, rfl, rfl, rfl⟩

/-- The operations that begin, end or move a run. -/
def TouchesRun (i : Instr) : Prop :=
  i = .cmdStart ∨ i = .cmdAbort ∨ i = .cmdSoftReset ∨ Internal i

/-- Any other operation leaves the run alone. -/
theorem exec_leavesRun (h : exec i s = .next t) (hi : ¬ TouchesRun i) : LeavesRun s t := by
  simp only [TouchesRun, Internal, not_or] at hi
  obtain ⟨not_start, not_abort, not_soft, not_engine, not_prbs, not_fixed, not_reset⟩ := hi
  have unchanged := LeavesRun.refl s
  rcases exec_next_cases i s t h with
    ⟨r, -, rfl⟩ | ⟨v, write⟩ | ⟨v, -, rfl⟩ | ⟨off, acc, -, rfl⟩ | ⟨-, rfl⟩ | ⟨start, -⟩ |
    ⟨start, -⟩ | ⟨abort, -⟩ | ⟨abort, -⟩ | ⟨soft | reset, -⟩ | ⟨v, -, rfl⟩ | ⟨engine, -⟩ |
    ⟨engine, -⟩ | ⟨prbs, -⟩ | ⟨fixed, -⟩
  · exact unchanged
  · rcases write with ⟨-, rfl⟩ | ⟨-, rfl⟩ | ⟨-, rfl⟩ | ⟨-, rfl⟩ | ⟨-, rfl⟩ | ⟨-, rfl⟩ | ⟨-, rfl⟩ <;>
      exact unchanged
  · exact unchanged
  · cases acc <;> exact unchanged
  · exact unchanged
  · exact absurd start not_start
  · exact absurd start not_start
  · exact absurd abort not_abort
  · exact absurd abort not_abort
  · exact absurd soft not_soft
  · exact absurd reset not_reset
  · exact unchanged
  · exact absurd engine not_engine
  · exact absurd engine not_engine
  · exact absurd prbs not_prbs
  · exact absurd fixed not_fixed

theorem not_touchesRun_of_leavesRunAlone {hop : Hop}
    (alone : Safety.leavesRunAlone (.host hop) = true) : ¬ TouchesRun (decode hop) := by
  simp only [Safety.leavesRunAlone, Bool.and_eq_true, bne_iff_ne] at alone
  obtain ⟨⟨not_abort, not_soft⟩, not_start⟩ := alone
  obtain ⟨-, no_word⟩ := internalOperationsHaveNoWord
  obtain ⟨not_engine, not_prbs, not_fixed, not_reset⟩ := no_word hop
  simp only [TouchesRun, Internal, not_or]
  exact ⟨not_start, not_abort, not_soft, not_engine, not_prbs, not_fixed, not_reset⟩

/-- A scheduled host access that leaves the run alone happens. -/
theorem step_host_leavesRun {hop : Hop} {rest : List Action}
    (hsched : s.schedule = .host hop :: rest)
    (alone : Safety.leavesRunAlone (.host hop) = true) :
    ∃ t : State, step s = .next t ∧ LeavesRun { s with schedule := rest } t := by
  have quiet := not_touchesRun_of_leavesRunAlone alone
  have not_engine : decode hop ≠ .engineStep := fun engine =>
    quiet (.inr (.inr (.inr (.inl engine))))
  obtain ⟨t, hexec⟩ := exec_completes { s with schedule := rest } not_engine
  exact ⟨t, (step_of_schedule_cons hsched).trans hexec, exec_leavesRun hexec quiet⟩

/-! ## START -/

theorem decode_startHop : decode Safety.startHop = .cmdStart := by decide

theorem startError_of_startable (idle : s.busy = false)
    (startable : Safety.Startable (Safety.configOf s)) : startError s = none := by
  obtain ⟨hsamp, hsym, hdepth⟩ := startable
  have ne_zero {w : Word} (pos : 0 < w.toNat) : w ≠ 0#32 := fun zero =>
    absurd (congrArg BitVec.toNat zero) pos.ne'
  simp [startError, idle, ne_zero hsamp, ne_zero hsym, ne_zero hdepth]

/-- A scheduled START of an idle block with positive parameters is accepted. -/
theorem step_start {rest : List Action} (hsched : s.schedule = .host Safety.startHop :: rest)
    (idle : s.busy = false) (startable : Safety.Startable (Safety.configOf s)) :
    step s = .next (beginRun { s with schedule := rest }) := by
  rw [step_of_schedule_cons hsched, actionInstr, decode_startHop]
  exact exec_cmdStart_of_no_error (startError_of_startable (s := { s with schedule := rest })
    idle startable)

end Sys2Proof.Machine
end

section
/-! The ideal waveform of a run: the state after `n` engine steps is the one that
43_sample_synthesis.md R148 and R155 give in closed form, and every action that leaves the run alone
keeps it there. -/

namespace Sys2Proof.Safety

open Sys2Proof.Machine

variable {s t : State} {c : RunConfig} {before : List Transfer} {n : Nat}

/-! ## The pattern state of a symbol -/

/-- The pattern state is that of symbol `j` of a run from `seed` (42_pattern_sources.md R137,
R138). -/
def PatternAt (p : Pattern) (seed : Lfsr) (j : Nat) (s : State) : Prop :=
  s.lvl = symbolLevel p seed j ∧ (p = .prbs31 → s.lfsr = prbsNext^[j] seed) ∧
    (p = .fixed20 → s.idx.toNat = j % 20)

theorem PatternAt.advance {seed : Lfsr} {j : Nat} (h : PatternAt s.wPsel seed j s) :
    PatternAt s.wPsel seed (j + 1) (advance s) := by
  obtain ⟨-, hprbs, hfixed⟩ := h
  cases hp : s.wPsel with
  | prbs31 =>
    have hlfsr := hprbs hp
    rw [advance_of_prbs31 hp]
    refine ⟨?_, fun _ => ?_, nofun⟩
    · rw [advancePrbs31_lvl, hlfsr, symbolLevel]
    · rw [advancePrbs31_lfsr, hlfsr, prbsNext_iterate_succ]
  | fixed20 =>
    have next_idx : (idxPlus s.idx 1).toNat = (j + 1) % 20 := by
      rw [idxPlus_toNat, hfixed hp, Nat.mod_add_mod]
    rw [advance_of_fixed20 hp]
    refine ⟨?_, nofun, fun _ => next_idx⟩
    rw [advanceFixed20_lvl, pat_idxPlus, next_idx, symbolLevel]

theorem PatternAt.advance_iterate {seed : Lfsr} {j : Nat} (h : PatternAt s.wPsel seed j s)
    (k : Nat) :
    PatternAt s.wPsel seed (j + k) (Machine.advance^[k] s) := by
  induction k with
  | zero => exact h
  | succ k ih =>
    rw [Function.iterate_succ_apply', ← advance_iterate_wPsel k s]
    rw [← advance_iterate_wPsel k s] at ih
    exact ih.advance

/-- The advances of an engine step take symbol `j` to symbol `j + k`. -/
theorem PatternAt.engineSample {seed : Lfsr} {j : Nat} (h : PatternAt s.wPsel seed j s)
    (hsym : s.wSym ≠ 0#32) :
    PatternAt s.wPsel seed (j + stepAdvances s) (engineSample s) := by
  have moved := h.advance_iterate (stepAdvances s)
  rw [← advanceMany_eq_iterate _ (stepAdvances_lt s hsym)] at moved
  rw [PatternAt, engineSample_lvl, engineSample_lfsr, engineSample_idx]
  exact moved

/-! ## The state after `n` steps -/

/-- `n` engine steps after a START with the configuration `c`: the working copies are `c`'s, the
transfers of the run follow those `before` it and are the ideal ones, and the counter, `BUSY`, the
accumulator and the pattern state are those of `n` steps. -/
structure FollowsRun (c : RunConfig) (before : List Transfer) (n : Nat) (s : State) : Prop where
  psel : s.wPsel = c.pattern
  sym : s.wSym.toNat = c.sym
  samp : s.wSamp.toNat = c.samp
  depth : s.wDepth.toNat = c.depth
  ampl : s.wAmpl.toNat = c.ampl
  steps_le : n ≤ c.depth
  out : s.out = before ++ (List.range n).map (idealTransfer c)
  count : s.sampleCount.toNat = n
  busy : s.busy = decide (n < c.depth)
  acc : (s.acc.toNat : Int) = idealAcc n c.samp c.sym
  symbol : PatternAt c.pattern c.seed (advancesIn n c.samp c.sym) s

/-- An accepted START is followed by the state of no steps. -/
theorem followsRun_beginRun (startable : Startable (configOf s)) :
    FollowsRun (configOf s) s.out 0 (beginRun s) where
  psel := rfl
  sym := rfl
  samp := rfl
  depth := rfl
  ampl := rfl
  steps_le := Nat.zero_le _
  out := (List.append_nil _).symm
  count := rfl
  busy := by
    obtain ⟨-, -, hdepth⟩ := startable
    rw [beginRun_busy, decide_eq_true hdepth]
  acc := by
    rw [beginRun_acc]
    simp [idealAcc, advancesIn, configOf]
  symbol := by
    have level_zero : symbolLevel s.psel s.seed 0 = false := by cases s.psel <;> rfl
    exact ⟨level_zero.symm, fun _ => rfl, fun _ => rfl⟩

/-- The actions still to come are no part of the run so far. -/
theorem FollowsRun.with_schedule (h : FollowsRun c before n s) (schedule : List Action) :
    FollowsRun c before n { s with schedule := schedule } :=
  ⟨h.psel, h.sym, h.samp, h.depth, h.ampl, h.steps_le, h.out, h.count, h.busy, h.acc, h.symbol⟩

theorem FollowsRun.of_leavesRun (h : FollowsRun c before n s) (alone : LeavesRun s t) :
    FollowsRun c before n t := by
  obtain ⟨same, hbusy, hout, -⟩ := alone
  obtain ⟨⟨hsym, hsamp, hdepth, hampl, hpsel⟩, ⟨hacc, hcount⟩, hlfsr, hidx, hlvl⟩ := same
  constructor
  case psel => rw [hpsel, h.psel]
  case sym => rw [hsym, h.sym]
  case samp => rw [hsamp, h.samp]
  case depth => rw [hdepth, h.depth]
  case ampl => rw [hampl, h.ampl]
  case steps_le => exact h.steps_le
  case out => rw [hout, h.out]
  case count => rw [hcount, h.count]
  case busy => rw [hbusy, h.busy]
  case acc => rw [hacc, h.acc]
  case symbol => rw [PatternAt, hlvl, hlfsr, hidx]; exact h.symbol

/-! ## One step of the run -/

theorem FollowsRun.wSym_ne (h : FollowsRun c before n s) (startable : Startable c) :
    s.wSym ≠ 0#32 := by
  obtain ⟨-, hsym, -⟩ := startable
  intro zero
  have sym_eq := h.sym
  rw [zero] at sym_eq
  exact hsym.ne sym_eq

/-- The advances of the step are those from `K(n)` to `K(n+1)`. -/
theorem FollowsRun.advancesIn_succ (h : FollowsRun c before n s) (startable : Startable c) :
    advancesIn (n + 1) c.samp c.sym = advancesIn n c.samp c.sym + stepAdvances s := by
  obtain ⟨hsamp, hsym, -⟩ := startable
  rw [Safety.advancesIn_succ n _ _ _ hsamp hsym h.acc, stepAdvances, h.samp, h.sym]

theorem FollowsRun.symbol_engineSample (h : FollowsRun c before n s) (startable : Startable c) :
    PatternAt c.pattern c.seed (advancesIn (n + 1) c.samp c.sym) (engineSample s) := by
  have now := h.symbol
  rw [← h.psel] at now ⊢
  rw [h.advancesIn_succ startable]
  exact now.engineSample (h.wSym_ne startable)

/-- The transfer of the step is the ideal one. -/
theorem FollowsRun.stepTransfer_eq (h : FollowsRun c before n s) (startable : Startable c) :
    stepTransfer s = idealTransfer c n := by
  obtain ⟨level_before, -⟩ := h.symbol
  obtain ⟨level_after, -⟩ := h.symbol_engineSample startable
  rw [engineSample_lvl] at level_after
  rw [stepTransfer, idealTransfer, stepSample, lastSample, ← sampleOf_eq_sampleCode, level_before,
    level_after, h.acc, h.samp, h.ampl, h.count, h.depth]

theorem FollowsRun.engineSample (h : FollowsRun c before n s) (startable : Startable c)
    (running : n < c.depth) : FollowsRun c before (n + 1) (engineSample s) := by
  have below : s.sampleCount.toNat < s.wDepth.toNat := by rwa [h.count, h.depth]
  constructor
  case psel => rw [engineSample_wPsel, h.psel]
  case sym => rw [engineSample_wSym, h.sym]
  case samp => rw [engineSample_wSamp, h.samp]
  case depth => rw [engineSample_wDepth, h.depth]
  case ampl => rw [engineSample_wAmpl, h.ampl]
  case steps_le => exact running
  case out =>
    rw [engineSample_out_eq, h.stepTransfer_eq startable, h.out, List.range_succ, List.map_append,
      List.append_assoc, List.map_singleton]
  case count => rw [engineSample_sampleCount_toNat below, h.count]
  case busy =>
    have last_iff := lastSample_iff s
    rw [h.count, h.depth] at last_iff
    rw [engineSample_busy, h.busy, decide_eq_true running]
    cases hlast : lastSample s with
    | true =>
      have complete : ¬ n + 1 < c.depth := (last_iff.mp hlast).not_lt
      exact (decide_eq_false complete).symm
    | false =>
      have not_last : n + 1 ≠ c.depth := by simpa [hlast] using last_iff
      have still_running : n + 1 < c.depth := by omega
      exact (decide_eq_true still_running).symm
  case acc =>
    have ⟨hsamp, hsym, _⟩ := startable
    rw [engineSample_acc_toNat_of_wSym_ne (h.wSym_ne startable), stepAdvances, h.samp, h.sym,
      accAfter_idealAcc n _ _ _ hsamp hsym h.acc]
  case symbol => exact h.symbol_engineSample startable

/-! ## The actions of the run -/

/-- A scheduled engine step makes the next step of the run, until there are `N`. -/
theorem FollowsRun.step_engine (h : FollowsRun c before n s) (startable : Startable c)
    {rest : List Action} (hsched : s.schedule = .engine :: rest) :
    ∃ t : State, step s = .next t ∧ t.schedule = rest ∧
      FollowsRun c before (min (n + 1) c.depth) t := by
  have unscheduled := h.with_schedule rest
  obtain running | complete := Nat.lt_or_ge n c.depth
  · have busy : s.busy = true := h.busy.trans (decide_eq_true running)
    refine ⟨_, Machine.step_engine hsched busy (h.wSym_ne startable), engineSample_schedule _, ?_⟩
    rw [Nat.min_eq_left running]
    exact unscheduled.engineSample startable running
  · have idle : s.busy = false := h.busy.trans (decide_eq_false complete.not_gt)
    have stutters := exec_engineStep_of_idle (s := { s with schedule := rest }) idle
    refine ⟨_, (step_of_schedule_cons hsched).trans stutters, rfl, ?_⟩
    rw [Nat.min_eq_right (by omega), ← Nat.le_antisymm h.steps_le complete]
    exact unscheduled

theorem engineActions_cons (a : Action) (as : List Action) :
    engineActions (a :: as) = engineActions [a] + engineActions as := by
  rw [engineActions, ← List.singleton_append, List.count_append]
  rfl

theorem engineActions_host (hop : Hop) : engineActions [.host hop] = 0 := rfl

/-- Any action that leaves the run alone makes as many steps of the run as it asks for, at most
`N`. -/
theorem FollowsRun.step_action (h : FollowsRun c before n s) (startable : Startable c) {a : Action}
    (alone : leavesRunAlone a = true) {rest : List Action} (hsched : s.schedule = a :: rest) :
    ∃ t : State, step s = .next t ∧ t.schedule = rest ∧
      FollowsRun c before (min (n + engineActions [a]) c.depth) t := by
  cases a with
  | engine => exact h.step_engine startable hsched
  | reset => exact absurd alone Bool.false_ne_true
  | host hop =>
    obtain ⟨t, hstep, leaves⟩ := step_host_leavesRun hsched alone
    have ⟨_, _, _, schedule_eq⟩ := leaves
    have unscheduled := h.with_schedule rest
    refine ⟨t, hstep, schedule_eq, ?_⟩
    rw [engineActions_host, Nat.add_zero, Nat.min_eq_left h.steps_le]
    exact unscheduled.of_leavesRun leaves

/-- A stretch of such actions makes as many steps of the run as there are engine steps in it, at
most `N`. -/
theorem FollowsRun.runFor_actions (startable : Startable c) (as rest : List Action) {n : Nat}
    {s : State} (h : FollowsRun c before n s) (alone : ∀ a ∈ as, leavesRunAlone a = true)
    (hsched : s.schedule = as ++ rest) :
    ∃ t : State, runFor as.length s = .next t ∧ t.schedule = rest ∧
      FollowsRun c before (min (n + engineActions as) c.depth) t := by
  induction as generalizing n s with
  | nil =>
    refine ⟨s, runFor_zero s, hsched, ?_⟩
    rw [show n + engineActions [] = n from rfl, Nat.min_eq_left h.steps_le]
    exact h
  | cons a as ih =>
    obtain ⟨alone_first, alone_rest⟩ := List.forall_mem_cons.mp alone
    obtain ⟨u, hstep, hsched_u, h_u⟩ := h.step_action startable alone_first hsched
    obtain ⟨t, hrun, hsched_t, h_t⟩ := ih h_u alone_rest hsched_u
    refine ⟨t, (runFor_succ_of_step hstep).trans hrun, hsched_t, ?_⟩
    have steps_eq : min (n + engineActions (a :: as)) c.depth =
        min (min (n + engineActions [a]) c.depth + engineActions as) c.depth := by
      rw [engineActions_cons]
      omega
    rw [steps_eq]
    exact h_t

/-- After an accepted START and a stretch of such actions, the state is that of as many steps as the
stretch has engine steps, at most `N`. -/
theorem exists_followsRun_of_start {as rest : List Action} (idle : s.busy = false)
    (startable : Startable (configOf s)) (alone : ∀ a ∈ as, leavesRunAlone a = true)
    (hsched : s.schedule = .host startHop :: (as ++ rest)) :
    ∃ t : State, runFor (as.length + 1) s = .next t ∧ t.schedule = rest ∧
      FollowsRun (configOf s) s.out (min (engineActions as) s.depth.toNat) t := by
  have started := followsRun_beginRun (s := { s with schedule := as ++ rest }) startable
  obtain ⟨t, hrun, hsched_t, h_t⟩ := started.runFor_actions startable as rest alone rfl
  refine ⟨t, (runFor_succ_of_step (step_start hsched idle startable)).trans hrun, hsched_t, ?_⟩
  rw [Nat.zero_add] at h_t
  exact h_t

/-- Settles O58: the clauses are fields of `FollowsRun` for the state that the stretch ends in. -/
theorem everyRunEmitsTheIdealWaveform : Obligations.EveryRunEmitsTheIdealWaveform := by
  intro s as rest idle startable alone hsched
  obtain ⟨t, hrun, hsched_t, h⟩ := exists_followsRun_of_start idle startable alone hsched
  obtain ⟨level, -⟩ := h.symbol
  have busy_iff : min (engineActions as) s.depth.toNat < s.depth.toNat ↔
      engineActions as < s.depth.toNat := by omega
  exact ⟨t, hrun, hsched_t, h.out, h.count, h.busy.trans (decide_eq_decide.mpr busy_iff), level,
    h.acc⟩

end Sys2Proof.Safety
end

section
/-! The error record (60_exceptions.md R160 to R169): what every operation can do to it. -/

namespace Sys2Proof.Machine

variable {i : Instr} {s t : State}

/-- The rows of 60_exceptions.md R160: the operation raises the cause in the state, and leaves the
host's reads as the list (40_register_access.md R113). -/
inductive RaisesErr (s : State) : Instr → ErrCause → List Word → Prop
  | invalidSampPeriod (idle : s.busy = false) (samp : s.sampPeriod = 0#32) :
      RaisesErr s .cmdStart .invalidSampPeriod s.reads
  | invalidSymPeriod (idle : s.busy = false) (samp : s.sampPeriod ≠ 0#32)
      (sym : s.symPeriod = 0#32) : RaisesErr s .cmdStart .invalidSymPeriod s.reads
  | invalidDepth (idle : s.busy = false) (samp : s.sampPeriod ≠ 0#32) (sym : s.symPeriod ≠ 0#32)
      (depth : s.depth = 0#32) : RaisesErr s .cmdStart .invalidDepth s.reads
  | illegalCmd (v : Word) : RaisesErr s (.cmdIllegal v) .illegalCmd s.reads
  | startWhileBusy (busy : s.busy = true) : RaisesErr s .cmdStart .startWhileBusy s.reads
  | readOnlyWrite {i : Instr} (v : Word) (register : i = .wrId v ∨ i = .wrSampleCount v ∨
      i = .wrAcc v ∨ i = .wrLfsr v ∨ i = .wrPstate v) : RaisesErr s i .badAccess s.reads
  | badOffsetWrite {i : Instr} (off : Offset) (v : Word) (illegal :
      i = .badAccessMisaligned off (.write v) ∨ i = .badAccessUnmapped off (.write v)) :
      RaisesErr s i .badAccess s.reads
  | badOffsetRead {i : Instr} (off : Offset) (illegal :
      i = .badAccessMisaligned off .read ∨ i = .badAccessUnmapped off .read) :
      RaisesErr s i .badAccess (s.reads ++ [0#32])

/-- The operations that clear the record: the acknowledge of bit 2 and the resets
(60_exceptions.md R169). -/
def ClearsErr (i : Instr) : Prop :=
  i = .cmdSoftReset ∨ i = .reset ∨ ∃ v : Word, i = .wrStatus v ∧ v.getLsbD 2 = true

/-- The error record is the same. -/
def SameErr (s t : State) : Prop := t.err = s.err ∧ t.errcode = s.errcode

theorem SameErr.refl (s : State) : SameErr s s := ⟨rfl, rfl⟩

theorem raisesErr_of_startError {c : ErrCause} (h : startError s = some c) :
    RaisesErr s .cmdStart c s.reads := by
  unfold startError at h
  split_ifs at h with busy samp sym depth <;> cases h
  · exact .startWhileBusy busy
  · exact .invalidSampPeriod (Bool.eq_false_iff.mpr busy) samp
  · exact .invalidSymPeriod (Bool.eq_false_iff.mpr busy) samp sym
  · exact .invalidDepth (Bool.eq_false_iff.mpr busy) samp sym depth

theorem exists_raisesErr_badAccess {off : Offset} {acc : Access}
    (illegal : i = .badAccessMisaligned off acc ∨ i = .badAccessUnmapped off acc) :
    ∃ (c : ErrCause) (reads : List Word), RaisesErr s i c reads ∧
      badAccess acc s = raiseErr c { s with reads := reads } := by
  cases acc with
  | read => exact ⟨_, _, .badOffsetRead off illegal, rfl⟩
  | write v => exact ⟨_, _, .badOffsetWrite off v illegal, rfl⟩

/-- The acknowledge clears the record where bit 2 is written 1, and else keeps it. -/
theorem ackStatus_err_cases (v : Word) (s : State) :
    SameErr s (ackStatus v s) ∨
    (v.getLsbD 2 = true ∧ (ackStatus v s).err = false ∧ (ackStatus v s).errcode = 0#4) := by
  rw [ackStatus_eq]
  cases hv : v.getLsbD 2 <;> simp [SameErr]

/-- What an operation does to the error record: it leaves it, or raises an error and changes nothing
else, or clears it. -/
theorem exec_err_cases (h : exec i s = .next t) :
    SameErr s t ∨
    (∃ (c : ErrCause) (reads : List Word), RaisesErr s i c reads ∧
      t = raiseErr c { s with reads := reads }) ∨
    (ClearsErr i ∧ t.err = false ∧ t.errcode = 0#4) := by
  have unchanged := SameErr.refl s
  rcases exec_next_cases i s t h with
    ⟨r, -, rfl⟩ | ⟨v, write⟩ | ⟨v, register, rfl⟩ | ⟨off, acc, illegal, rfl⟩ | ⟨-, rfl⟩ |
    ⟨rfl, c, cause, rfl⟩ | ⟨-, -, rfl⟩ | ⟨-, -, rfl⟩ | ⟨-, -, rfl⟩ | ⟨resets, rfl⟩ |
    ⟨v, rfl, rfl⟩ | ⟨-, -, rfl⟩ | ⟨-, -, -, rfl⟩ | ⟨-, rfl⟩ | ⟨-, rfl⟩
  · exact .inl unchanged
  · rcases write with ⟨-, rfl⟩ | ⟨-, rfl⟩ | ⟨-, rfl⟩ | ⟨-, rfl⟩ | ⟨-, rfl⟩ | ⟨-, rfl⟩ | ⟨ack, rfl⟩
    iterate 6 exact .inl unchanged
    obtain kept | ⟨bit, cleared⟩ := ackStatus_err_cases v s
    · exact .inl kept
    · exact .inr (.inr ⟨.inr (.inr ⟨v, ack, bit⟩), cleared⟩)
  · exact .inr (.inl ⟨_, _, .readOnlyWrite v register, rfl⟩)
  · exact .inr (.inl (exists_raisesErr_badAccess illegal))
  · exact .inl unchanged
  · exact .inr (.inl ⟨c, _, raisesErr_of_startError cause, rfl⟩)
  · exact .inl unchanged
  · exact .inl unchanged
  · exact .inl unchanged
  · exact .inr (.inr ⟨resets.imp_right .inl, rfl, rfl⟩)
  · exact .inr (.inl ⟨_, _, .illegalCmd v, rfl⟩)
  · exact .inl unchanged
  · exact .inl ⟨engineSample_err s, engineSample_errcode s⟩
  · exact .inl unchanged
  · exact .inl unchanged

/-- Settles O25: a further error keeps the code of the first, and the operations that clear the
record are those of `ClearsErr`. -/
theorem firstErrorIsKept : Obligations.FirstErrorIsKept := by
  intro i s t h recorded
  obtain ⟨herr, hcode⟩ | ⟨c, reads, -, rfl⟩ | ⟨clears, herr, hcode⟩ := exec_err_cases h
  · exact .inl ⟨herr.trans recorded, hcode⟩
  · exact .inl ⟨rfl, (raiseErr_errcode c _).trans (if_pos recorded)⟩
  · exact .inr ⟨clears, herr, hcode⟩

/-- Settles O26: a new record was raised by a row of `RaisesErr`, and the first error's code
is the cause's. -/
theorem newErrorsHaveTheirCause : Obligations.NewErrorsHaveTheirCause := by
  intro i s t h none_before recorded
  obtain ⟨herr, -⟩ | ⟨c, reads, raises, rfl⟩ | ⟨-, herr, -⟩ := exec_err_cases h
  · exact absurd (none_before.symm.trans (herr.symm.trans recorded)) Bool.false_ne_true
  · have code : (raiseErr c { s with reads := reads }).errcode = errCode c := by
      rw [raiseErr_errcode, none_before]
      rfl
    refine ⟨rfl, ?_⟩
    rw [code]
    cases raises with
    | invalidSampPeriod idle samp => exact .inl ⟨rfl, idle, samp, rfl, rfl⟩
    | invalidSymPeriod idle samp sym => exact .inr (.inl ⟨rfl, idle, samp, sym, rfl, rfl⟩)
    | invalidDepth idle samp sym depth =>
      exact .inr (.inr (.inl ⟨rfl, idle, samp, sym, depth, rfl, rfl⟩))
    | illegalCmd v => exact .inr (.inr (.inr (.inl ⟨⟨v, rfl⟩, rfl, rfl⟩)))
    | startWhileBusy busy => exact .inr (.inr (.inr (.inr (.inl ⟨rfl, busy, rfl, rfl⟩))))
    | readOnlyWrite v register =>
      refine .inr (.inr (.inr (.inr (.inr (.inl ⟨⟨v, ?_⟩, rfl, rfl⟩)))))
      tauto
    | badOffsetWrite off v illegal =>
      refine .inr (.inr (.inr (.inr (.inr (.inl ⟨⟨v, ?_⟩, rfl, rfl⟩)))))
      exact .inr (.inr (.inr (.inr (.inr (illegal.imp (⟨off, ·⟩) (⟨off, ·⟩))))))
    | badOffsetRead off illegal =>
      exact .inr (.inr (.inr (.inr (.inr (.inr ⟨⟨off, illegal⟩, rfl, rfl⟩)))))
  · exact absurd (herr.symm.trans recorded) Bool.false_ne_true

end Sys2Proof.Machine
end

section
/-! The sample counter over all operations (60_exceptions.md R172, 43_sample_synthesis.md R150). -/

namespace Sys2Proof.Safety

open Sys2Proof.Machine

variable {s t : State}

theorem cmdStart_sampleCount_cases (h : exec .cmdStart s = .next t) :
    t.sampleCount = s.sampleCount ∨ t.sampleCount = 0#32 := by
  cases herror : startError s with
  | some c => cases (exec_cmdStart_of_error herror).symm.trans h; exact .inl rfl
  | none => cases (exec_cmdStart_of_no_error herror).symm.trans h; exact .inr rfl

/-- Settles O47: the invariant keeps the counter below `N` during a run, so the step does not wrap,
and `exec_run_cases` names the operations that can change the counter. -/
theorem sampleCounterCountsSteps : Obligations.SampleCounterCountsSteps := by
  intro i s t hinv h
  constructor
  · rintro rfl hb
    rw [eq_engineSample_of_busy h hb]
    exact engineSample_sampleCount_toNat (hinv.sampleCount_lt_of_busy hb)
  · intro changed
    obtain (rfl | rfl | rfl) | ⟨rfl, -⟩ | ⟨-, -, -, kept⟩ | ⟨-, ⟨-, kept⟩, -⟩ := exec_run_cases h
    · have zeroed := (cmdStart_sampleCount_cases h).resolve_left changed
      exact .inr ⟨.inl rfl, zeroed⟩
    · cases h; exact .inr ⟨.inr (.inl rfl), rfl⟩
    · cases h; exact .inr ⟨.inr (.inr rfl), rfl⟩
    · cases hb : s.busy with
      | true => exact .inl ⟨rfl, rfl⟩
      | false =>
        cases (exec_engineStep_of_idle hb).symm.trans h
        exact absurd rfl changed
    · exact absurd kept changed
    · exact absurd kept changed

end Sys2Proof.Safety
end

section
/-! The stop of the model and the states that cannot reach it (60_exceptions.md R166; log 8). -/

namespace Sys2Proof.Machine

theorem loopDiverges_iff (s : State) :
    loopDiverges s = true ↔ s.wSym = 0#32 ∧ s.acc.toNat < s.wSamp.toNat := by
  simp [loopDiverges]

/-- Settles O49: every other operation completes, and an engine step stops only where its loop
diverges. -/
theorem onlyADivergingLoopStops : Obligations.OnlyADivergingLoopStops := by
  intro i s
  by_cases hi : i = .engineStep
  · subst hi
    obtain ⟨-, stutters⟩ | ⟨busy, diverges, stops⟩ | ⟨-, -, completes⟩ := execEngineStep_cases s
    · exact .inl ⟨s, stutters⟩
    · obtain ⟨hsym, below⟩ := (loopDiverges_iff s).mp diverges
      exact .inr ⟨rfl, busy, hsym, below, stops⟩
    · exact .inl ⟨engineSample s, completes⟩
  · exact .inl (exec_completes s hi)

end Sys2Proof.Machine

namespace Sys2Proof.Safety

open Sys2Proof.Machine

variable {s : State}

/-- Under the invariant the loop ends, because a run's symbol period is not 0. -/
theorem Inv.exec_completes (h : Inv s) (i : Instr) : ∃ t : State, Machine.exec i s = .next t := by
  obtain completes | ⟨-, busy, hsym, -, -⟩ := onlyADivergingLoopStops i s
  · exact completes
  · obtain ⟨sym_ne, -, -⟩ := h.started_of_busy busy
    exact absurd hsym sym_ne

/-- Settles O57: a step is the operation of the next action on a state that differs in its schedule
only. -/
theorem safeStatesNeverStop : Obligations.SafeStatesNeverStop := by
  intro s hinv
  cases hsched : s.schedule with
  | nil => exact ⟨s, step_of_schedule_nil hsched⟩
  | cons a rest =>
    rw [step_of_schedule_cons hsched]
    exact hinv.with_config.exec_completes (actionInstr a)

end Sys2Proof.Safety
end

section
/-! Everything an operation can do to a run, by name, and what a stretch of actions keeps because
each of its actions does (70_reset_and_hazards.md R188 to R194). -/

namespace Sys2Proof.Machine

variable {i : Instr} {s t : State}

/-- The operations that begin, end or move a run, each with the state that it answers. -/
inductive MovesRun (s : State) : Instr → State → Prop
  | start (accepted : startError s = none) : MovesRun s .cmdStart (beginRun s)
  | abort (busy : s.busy = true) : MovesRun s .cmdAbort (abortRun s)
  | softReset : MovesRun s .cmdSoftReset (resetBlock s)
  | reset : MovesRun s .reset (resetBlock s)
  | engineStep (busy : s.busy = true) : MovesRun s .engineStep (engineSample s)
  | advPrbs31 : MovesRun s .advPrbs31 (advancePrbs31 s)
  | advFixed20 : MovesRun s .advFixed20 (advanceFixed20 s)

/-- A refused START, an idle ABORT and an idle engine step leave the run alone like the operations
that never touch it. -/
theorem exec_leavesRun_or_movesRun (h : exec i s = .next t) : LeavesRun s t ∨ MovesRun s i t := by
  by_cases touches : TouchesRun i
  · obtain rfl | rfl | rfl | rfl | rfl | rfl | rfl := touches
    · cases herror : startError s with
      | some c =>
        cases (exec_cmdStart_of_error herror).symm.trans h
        exact .inl (LeavesRun.refl s)
      | none =>
        cases (exec_cmdStart_of_no_error herror).symm.trans h
        exact .inr (.start herror)
    · cases hb : s.busy with
      | true =>
        cases (exec_cmdAbort_of_busy hb).symm.trans h
        exact .inr (.abort hb)
      | false =>
        cases (exec_cmdAbort_of_idle hb).symm.trans h
        exact .inl (LeavesRun.refl s)
    · cases h; exact .inr .softReset
    · cases hb : s.busy with
      | true => rw [eq_engineSample_of_busy h hb]; exact .inr (.engineStep hb)
      | false =>
        cases (exec_engineStep_of_idle hb).symm.trans h
        exact .inl (LeavesRun.refl s)
    · cases h; exact .inr .advPrbs31
    · cases h; exact .inr .advFixed20
    · cases h; exact .inr .reset
  · exact .inl (exec_leavesRun h touches)

theorem MovesRun.schedule_eq (h : MovesRun s i t) : t.schedule = s.schedule := by
  cases h with
  | engineStep => exact engineSample_schedule s
  | _ => rfl

/-- No operation looks at the actions still to come. -/
theorem exec_schedule (h : exec i s = .next t) : t.schedule = s.schedule := by
  obtain ⟨-, -, -, kept⟩ | moves := exec_leavesRun_or_movesRun h
  · exact kept
  · exact moves.schedule_eq

theorem coreRun_succ_cases {M : Host.Core} {k : Nat} {s t : M.State}
    (h : M.run (k + 1) s = .next t) :
    ∃ u : M.State, M.step s = .next u ∧ M.run k u = .next t := by
  rw [Host.Core.run] at h
  split at h
  · next u hstep => exact ⟨u, hstep, h⟩
  · cases h
  · cases h

end Sys2Proof.Machine

namespace Sys2Proof.Safety

open Sys2Proof.Machine

variable {s t : State}

theorem runFor_succ_cases {k : Nat} (h : runFor (k + 1) s = .next t) :
    ∃ u : State, step s = .next u ∧ runFor k u = .next t :=
  coreRun_succ_cases (M := Sys2Proof.core) h

/-- What every action of a stretch keeps, whatever is scheduled after it, the stretch keeps. -/
theorem runFor_keeps {P : State → Prop} (as rest : List Action) {s : State}
    (hsched : s.schedule = as ++ rest) (hrun : runFor as.length s = .next t)
    (keeps : ∀ a ∈ as, ∀ (u v : State) (later : List Action), P u →
      exec (actionInstr a) { u with schedule := later } = .next v → P v)
    (hs : P s) : P t := by
  induction as generalizing s with
  | nil => cases (runFor_zero s).symm.trans hrun; exact hs
  | cons a as ih =>
    obtain ⟨keeps_first, keeps_rest⟩ := List.forall_mem_cons.mp keeps
    obtain ⟨u, hstep, hrun_u⟩ := runFor_succ_cases hrun
    have hexec := (step_of_schedule_cons hsched).symm.trans hstep
    exact ih (exec_schedule hexec) hrun_u keeps_rest (keeps_first s u _ hs hexec)

end Sys2Proof.Safety
end

section
/-! START straight after reset (70_reset_and_hazards.md R185), and the configuration registers
during a run (R186). -/

namespace Sys2Proof.Machine

variable {s t : State}

/-! ## START after reset -/

/-- Settles O24: after reset the first parameter that START checks is 0, and the read returns the
`STATUS` word of that one error. -/
theorem startAfterResetIsRefused : Obligations.StartAfterResetIsRefused := by
  have refused : exec .cmdStart State.reset =
      .next { State.reset with err := true, errcode := 1#4 } :=
    exec_cmdStart_of_error (c := .invalidSampPeriod) rfl
  exact ⟨_, _, refused, rfl, exec_readOf .status _, by decide⟩

/-! ## The configuration registers -/

/-- The state with the configuration registers that `c` has (10_state.md R25 to R30). -/
def withConfigOf (c s : State) : State :=
  { s with psel := c.psel, ieDone := c.ieDone, ieErr := c.ieErr, seed := c.seed,
           symPeriod := c.symPeriod, sampPeriod := c.sampPeriod, depth := c.depth,
           amplitude := c.amplitude }

theorem advanceMany_withConfigOf (c : State) (k : Nat) (s : State) :
    advanceMany k (withConfigOf c s) = withConfigOf c (advanceMany k s) := by
  have same_source : (withConfigOf c s).wPsel = s.wPsel := rfl
  unfold advanceMany
  rw [same_source]
  split_ifs
  · rfl
  · cases s.wPsel <;> rfl

/-- The step works on the working copies only (10_state.md R36). -/
theorem engineSample_withConfigOf (c s : State) :
    engineSample (withConfigOf c s) = withConfigOf c (engineSample s) := by
  have same_advances : stepAdvances (withConfigOf c s) = stepAdvances s := rfl
  simp only [engineSample, same_advances, advanceMany_withConfigOf]
  rfl

theorem exec_engineStep_withConfigOf (c : State) (h : exec .engineStep s = .next t) :
    exec .engineStep (withConfigOf c s) = .next (withConfigOf c t) := by
  obtain ⟨idle, stutters⟩ | ⟨-, -, stops⟩ | ⟨busy, ends, completes⟩ := execEngineStep_cases s
  · cases stutters.symm.trans h
    exact exec_engineStep_of_idle (s := withConfigOf c s) idle
  · cases stops.symm.trans h
  · cases completes.symm.trans h
    obtain ⟨idle, -⟩ | ⟨-, diverges, -⟩ | ⟨-, -, completes_too⟩ :=
      execEngineStep_cases (withConfigOf c s)
    · exact absurd (idle.symm.trans busy) Bool.false_ne_true
    · exact absurd (ends.symm.trans diverges) Bool.false_ne_true
    · rw [← engineSample_withConfigOf]
      exact completes_too

/-- Settles O45: the eight fields are those that `withConfigOf` sets, before and after the step. -/
theorem runsIgnoreTheConfigurationRegisters : Obligations.RunsIgnoreTheConfigurationRegisters := by
  intro s t p d e seed sym samp depth ampl h
  exact exec_engineStep_withConfigOf
    { s with psel := p, ieDone := d, ieErr := e, seed := seed, symPeriod := sym,
             sampPeriod := samp, depth := depth, amplitude := ampl } h

end Sys2Proof.Machine
end

section
/-! How a run ends: the last engine step, ABORT and the resets (70_reset_and_hazards.md R191,
R194). -/

namespace Sys2Proof.Machine

variable {s : State}

theorem lastSample_of_engineSample_idle (busy : s.busy = true)
    (ends : (engineSample s).busy = false) : lastSample s = true := by
  rw [engineSample_busy, busy] at ends
  simpa using ends

theorem status_resetBlock (s : State) : regValue .status (resetBlock s) = 0#32 := by
  have flags_clear : regValue .status (resetBlock s) = regValue .status State.reset := rfl
  rw [flags_clear]
  decide

theorem decode_abortHop : decode Safety.abortHop = .cmdAbort := by decide

theorem step_abort {rest : List Action} (hsched : s.schedule = .host Safety.abortHop :: rest) :
    step s = exec .cmdAbort { s with schedule := rest } := by
  rw [step_of_schedule_cons hsched, actionInstr, decode_abortHop]

end Sys2Proof.Machine

namespace Sys2Proof.Safety

open Sys2Proof.Machine

variable {s : State}

theorem Inv.flags_of_busy (h : Inv s) (busy : s.busy = true) :
    s.done = false ∧ s.aborted = false := by
  obtain ⟨-, running⟩ := h.flags
  exact running busy

/-- During a run no transfer of it has `LAST = 1` yet. -/
theorem Inv.run_without_last (h : Inv s) (busy : s.busy = true) :
    ∃ run : List Transfer, RunInOut s run ∧ ∀ x ∈ run, x.last = false := by
  obtain ⟨run, hrun⟩ := h.run
  exact ⟨run, hrun, hrun.last_eq_false_of_length_lt (h.length_lt_of_busy busy hrun)⟩

/-- The last step counts to `N`, emits `LAST = 1` and raises `DONE`. -/
theorem Inv.engineSample_of_last (h : Inv s) (busy : s.busy = true) (last : lastSample s = true) :
    (Machine.engineSample s).done = true ∧ (Machine.engineSample s).sampleCount = s.wDepth ∧
      ∃ x : Transfer, (Machine.engineSample s).out = s.out ++ [x] ∧ x.last = true := by
  obtain ⟨done, -⟩ := Machine.engineSample_of_last last
  obtain ⟨count, -⟩ := (h.engineSample busy).complete_of_done done
  rw [engineSample_wDepth] at count
  exact ⟨done, count, stepTransfer s, engineSample_out_eq s, last⟩

/-- Settles O48: of the operations of `MovesRun` only START raises `BUSY`, and the last engine step,
ABORT and the resets clear it. -/
theorem runsEndInThreeWays : Obligations.RunsEndInThreeWays := by
  intro i s t hinv h
  obtain ⟨-, kept, -⟩ | moves := exec_leavesRun_or_movesRun h
  · exact ⟨fun idle begun => absurd (idle.symm.trans (kept.symm.trans begun)) Bool.false_ne_true,
      fun busy ended => absurd (ended.symm.trans (kept.trans busy)) Bool.false_ne_true⟩
  · constructor
    · intro idle begun
      cases moves with
      | start accepted =>
        obtain ⟨-, parameters⟩ := startError_none accepted
        exact ⟨rfl, parameters⟩
      | abort | softReset | reset => cases begun
      | engineStep busy => exact absurd (idle.symm.trans busy) Bool.false_ne_true
      | advPrbs31 | advFixed20 => exact absurd (idle.symm.trans begun) Bool.false_ne_true
    · intro busy ended
      cases moves with
      | start => cases ended
      | abort =>
        obtain ⟨not_done, -⟩ := hinv.flags_of_busy busy
        have irq_eq : irq (abortRun s) = (s.err && s.ieErr) := by simp [irq, not_done]
        exact .inr (.inl ⟨rfl, rfl, not_done, hinv.sampleCount_lt_of_busy busy, rfl,
          hinv.run_without_last busy, irq_eq⟩)
      | softReset =>
        exact .inr (.inr ⟨.inl rfl, status_resetBlock s, rfl, rfl, hinv.run_without_last busy,
          irq_resetBlock s⟩)
      | reset =>
        exact .inr (.inr ⟨.inr rfl, status_resetBlock s, rfl, rfl, hinv.run_without_last busy,
          irq_resetBlock s⟩)
      | engineStep =>
        obtain ⟨done, count, out⟩ :=
          hinv.engineSample_of_last busy (lastSample_of_engineSample_idle busy ended)
        have irq_eq : irq (engineSample s) = (s.ieDone || (s.err && s.ieErr)) := by
          rw [irq, done, engineSample_ieDone, engineSample_err, engineSample_ieErr, Bool.true_and]
        exact .inl ⟨rfl, done, count, out, irq_eq⟩
      | advPrbs31 | advFixed20 => exact absurd (ended.symm.trans busy) Bool.false_ne_true

/-- An ABORT scheduled after the last step finds the run complete. -/
theorem Inv.step_abort_of_complete (h : Inv s) (busy : s.busy = true) (last : lastSample s = true)
    {rest : List Action} (hsched : s.schedule = .host abortHop :: rest) :
    ∃ t : State, step (Machine.engineSample s) = .next t ∧ t.busy = false ∧ t.aborted = false ∧
      t.done = true ∧ t.sampleCount = t.wDepth ∧
      ∃ x : Transfer, t.out = s.out ++ [x] ∧ x.last = true := by
  obtain ⟨-, idle⟩ := Machine.engineSample_of_last last
  obtain ⟨done, count, out⟩ := h.engineSample_of_last busy last
  obtain ⟨-, not_aborted⟩ := h.flags_of_busy busy
  have does_nothing := (step_abort ((engineSample_schedule s).trans hsched)).trans
    (exec_cmdAbort_of_idle (s := { Machine.engineSample s with schedule := rest }) idle)
  exact ⟨_, does_nothing, idle, (engineSample_aborted s).trans not_aborted, done,
    count.trans (engineSample_wDepth s).symm, out⟩

/-- Settles O50: whichever of the two comes first leaves the block idle, where the other does
nothing. -/
theorem abortRacesTheLastStep : Obligations.AbortRacesTheLastStep := by
  intro s rest hinv busy hcount
  constructor
  · intro hsched
    obtain ⟨not_done, -⟩ := hinv.flags_of_busy busy
    have aborts := (step_abort hsched).trans (exec_cmdAbort_of_busy busy)
    have stutters : step (abortRun { s with schedule := .engine :: rest }) =
        .next (abortRun { s with schedule := rest }) :=
      exec_engineStep_of_idle (s := abortRun { s with schedule := rest }) rfl
    refine ⟨abortRun { s with schedule := rest }, ?_, rfl, rfl, not_done, rfl,
      hinv.sampleCount_lt_of_busy busy, rfl⟩
    rw [runFor_succ_of_step aborts, runFor_succ_of_step stutters, runFor_zero]
  · intro hsched
    obtain ⟨hsym, -, -⟩ := hinv.started_of_busy busy
    have completes := step_engine hsched busy hsym
    obtain ⟨t, does_nothing, facts⟩ := Inv.step_abort_of_complete
      (s := { s with schedule := .host abortHop :: rest }) hinv.with_config busy
      ((lastSample_iff s).mpr hcount) rfl
    refine ⟨t, ?_, facts⟩
    rw [runFor_succ_of_step completes, runFor_succ_of_step does_nothing, runFor_zero]

end Sys2Proof.Safety
end

section
/-! Reading the progress of a run from `SAMPLE_COUNT` (70_reset_and_hazards.md R188). -/

namespace Sys2Proof.Safety

open Sys2Proof.Machine

variable {s t u : State} {i : Instr}

/-- The engine has not moved: the accumulator, the pattern state and `OUT` are the same. -/
def EngineUnmoved (s t : State) : Prop :=
  t.acc = s.acc ∧ t.lfsr = s.lfsr ∧ t.idx = s.idx ∧ t.lvl = s.lvl ∧ t.out = s.out

/-- Either the counter has gone up, or it is the same and the engine has not moved. -/
def CountsEveryMove (s t : State) : Prop :=
  s.sampleCount.toNat < t.sampleCount.toNat ∨ (t.sampleCount = s.sampleCount ∧ EngineUnmoved s t)

theorem CountsEveryMove.refl (s : State) : CountsEveryMove s s :=
  .inr ⟨rfl, rfl, rfl, rfl, rfl, rfl⟩

theorem EngineUnmoved.trans (h : EngineUnmoved s t) (h' : EngineUnmoved t u) :
    EngineUnmoved s u := by
  obtain ⟨acc, lfsr, idx, lvl, out⟩ := h
  obtain ⟨acc', lfsr', idx', lvl', out'⟩ := h'
  exact ⟨acc'.trans acc, lfsr'.trans lfsr, idx'.trans idx, lvl'.trans lvl, out'.trans out⟩

theorem CountsEveryMove.trans (h : CountsEveryMove s t) (h' : CountsEveryMove t u) :
    CountsEveryMove s u := by
  obtain up | ⟨same, unmoved⟩ := h <;> obtain up' | ⟨same', unmoved'⟩ := h'
  · exact .inl (up.trans up')
  · exact .inl (same' ▸ up)
  · exact .inl (same ▸ up')
  · exact .inr ⟨same'.trans same, unmoved.trans unmoved'⟩

/-- An operation that an action performs, other than START and the resets, counts the step in which
it moves the engine. -/
theorem Inv.countsEveryMove (h : Inv s) (hexec : Machine.exec i s = .next t)
    (not_start : i ≠ .cmdStart) (not_soft : i ≠ .cmdSoftReset) (not_reset : i ≠ .reset)
    (not_advance : ¬ (i = .advPrbs31 ∨ i = .advFixed20)) : CountsEveryMove s t := by
  obtain ⟨⟨-, ⟨acc, count⟩, lfsr, idx, lvl⟩, -, out, -⟩ | moves := exec_leavesRun_or_movesRun hexec
  · exact .inr ⟨count, acc, lfsr, idx, lvl, out⟩
  · cases moves with
    | start => exact absurd rfl not_start
    | abort => exact CountsEveryMove.refl s
    | softReset => exact absurd rfl not_soft
    | reset => exact absurd rfl not_reset
    | engineStep busy =>
      have counted := engineSample_sampleCount_toNat (h.sampleCount_lt_of_busy busy)
      exact .inl (counted ▸ Nat.lt_succ_self _)
    | advPrbs31 => exact absurd (.inl rfl) not_advance
    | advFixed20 => exact absurd (.inr rfl) not_advance

/-- Settles O53: along the stretch every move of the engine is counted, and the counter only goes
up. -/
theorem equalCountsMeanNoStep : Obligations.EqualCountsMeanNoStep := by
  intro s t as rest hinv hsched quiet hrun hcount
  have keeps : ∀ a ∈ as, ∀ (u v : State) (later : List Action), Inv u ∧ CountsEveryMove s u →
      exec (actionInstr a) { u with schedule := later } = .next v →
      Inv v ∧ CountsEveryMove s v := by
    intro a ha u v later ⟨hinv_u, so_far⟩ hexec
    obtain ⟨not_start, not_soft, not_reset⟩ := quiet a ha
    have unscheduled : Inv { u with schedule := later } := hinv_u.with_config
    have counted := unscheduled.countsEveryMove hexec not_start not_soft not_reset
      (actionInstr_ne_advance a)
    exact ⟨unscheduled.exec (actionInstr_ne_advFixed20 a) hexec, so_far.trans counted⟩
  obtain ⟨-, up | ⟨-, unmoved⟩⟩ :=
    runFor_keeps as rest hsched hrun keeps ⟨hinv, CountsEveryMove.refl s⟩
  · exact absurd (congrArg BitVec.toNat hcount) up.ne'
  · exact unmoved

end Sys2Proof.Safety
end

section
/-! Whole runs: what a complete one leaves in the flags (70_reset_and_hazards.md R190), and that two
of the same configuration emit the same transfers (R195). -/

namespace Sys2Proof.Safety

open Sys2Proof.Machine

variable {s t u : State}

/-! ## A complete run -/

/-- The flags of `t` are those of an accepted START in `s` and engine steps since: `DONE` once the
run is over, no abort, and the error record of before (41_commands.md R121, 43_sample_synthesis.md
R151). -/
def RunsCleanly (s t : State) : Prop :=
  t.done = !t.busy ∧ t.aborted = false ∧ SameErr s t

theorem runsCleanly_beginRun (s : State) : RunsCleanly s (beginRun s) :=
  ⟨rfl, rfl, SameErr.refl s⟩

theorem RunsCleanly.engineSample (h : RunsCleanly s t) : RunsCleanly s (engineSample t) := by
  obtain ⟨done, aborted, err⟩ := h
  refine ⟨?_, (engineSample_aborted t).trans aborted, ?_⟩
  · rw [engineSample_done, engineSample_busy, done]
    cases lastSample t <;> rfl
  · rwa [SameErr, engineSample_err, engineSample_errcode]

theorem RunsCleanly.engineStep (h : RunsCleanly s t) (hexec : exec .engineStep t = .next u) :
    RunsCleanly s u := by
  cases hb : t.busy with
  | false => cases (exec_engineStep_of_idle hb).symm.trans hexec; exact h
  | true => rw [eq_engineSample_of_busy hexec hb]; exact h.engineSample

/-- Settles O59: after `N` engine steps `FollowsRun` gives the transfers and the counter, and
`RunsCleanly`, which each step keeps, gives the flags. -/
theorem completeRunEmitsDepthSamples : Obligations.CompleteRunEmitsDepthSamples := by
  intro s rest idle startable hsched
  have alone : ∀ a ∈ List.replicate s.depth.toNat Action.engine, leavesRunAlone a = true := by
    intro a ha
    rw [List.eq_of_mem_replicate ha]
    rfl
  have steps : min (engineActions (List.replicate s.depth.toNat .engine)) s.depth.toNat =
      s.depth.toNat := by
    rw [engineActions, List.count_replicate_self, Nat.min_self]
  obtain ⟨t, hrun, hsched_t, follows⟩ := exists_followsRun_of_start idle startable alone hsched
  rw [steps] at follows
  have hrun_begun := (runFor_succ_of_step (step_start hsched idle startable)).symm.trans hrun
  have clean : RunsCleanly s t := by
    refine runFor_keeps _ rest rfl hrun_begun ?_ (runsCleanly_beginRun s)
    intro a ha u v later clean hexec
    rw [List.eq_of_mem_replicate ha] at hexec
    exact RunsCleanly.engineStep (t := { u with schedule := later }) clean hexec
  obtain ⟨done, aborted, err, errcode⟩ := clean
  have ended : t.busy = false := follows.busy.trans (decide_eq_false (lt_irrefl _))
  rw [ended] at done
  rw [List.length_replicate] at hrun
  refine ⟨t, hrun, hsched_t, ended, done, aborted, BitVec.eq_of_toNat_eq follows.count, err,
    errcode, _, follows.out, ?_, fun n hn => ?_⟩
  · rw [List.length_map, List.length_range]
  · rw [List.getElem_map, List.getElem_range]
    rfl

/-! ## Two runs -/

/-- Settles O60: both runs append the ideal transfers of the one configuration, as many as the
engine steps that both have. -/
theorem runsAreDeterministic : Obligations.RunsAreDeterministic := by
  intro s s' as as' rest rest' idle idle' same_config startable alone alone' same_steps hsched
    hsched'
  obtain ⟨t, hrun, -, follows⟩ := exists_followsRun_of_start idle startable alone hsched
  obtain ⟨t', hrun', -, follows'⟩ :=
    exists_followsRun_of_start idle' (same_config ▸ startable) alone' hsched'
  have same_depth : s.depth.toNat = s'.depth.toNat := congrArg RunConfig.depth same_config
  rw [← same_steps, ← same_depth, ← same_config] at follows'
  exact ⟨t, t', _, hrun, hrun', follows.out, follows'.out⟩

end Sys2Proof.Safety
end
